-- ==== Sys2Proof/Word.lean ====
section
/-! DEFINITION. The word types of the machine (spec/00_scope.md R8; spec/10_state.md R20 to R25). -/

namespace Sys2Proof

/-- A byte, 8 bits (R8). -/
abbrev Byte := BitVec 8

/-- A word, 16 bits (R8): the width of a general register, an address offset and an instruction word. -/
abbrev Word := BitVec 16

/-- A long word, 32 bits (R8). -/
abbrev Long := BitVec 32

/-- A 64-bit operand, which exists only in register quadruples (R25; spec/20_memory.md R93). -/
abbrev Quad := BitVec 64

/-- The 4-bit register field of an instruction (R20, R22, R24, R25): the instruction decides which width it names. -/
abbrev RegCode := BitVec 4

/-- The 4-bit condition code field (spec/30_encoding.md R140). -/
abbrev CondCode := BitVec 4

/-- A 7-bit segment number (spec/20_memory.md R81). -/
abbrev SegNum := BitVec 7

end Sys2Proof
end

