-- ==== Sys2Proof/Config.lean ====
section
/-! DEFINITION. What is fixed for one machine (the parameters of spec/00_scope.md R7) and the free values
(draw_N of spec/00_scope.md section 5.4). -/

namespace Sys2Proof

/-- The part modelled: parameter VARIANT (spec/00_scope.md R7). -/
inductive Variant where
  | amz8001
  | amz8002
deriving DecidableEq, Repr

/-- Parameter PRIV_TRAP_PC (spec/60_exceptions.md R517): the PC that the privileged-instruction trap saves. -/
inductive PrivTrapPc where
  /-- the address of the trapped instruction's first word plus 2 (the default) -/
  | firstWordPlus2
  /-- the address after all its words -/
  | nextInstruction
deriving DecidableEq, Repr

/-- Parameter RLDB_FIELD_ORDER (spec/46_rotate_shift.md R346; spec/93_implementation_defined.md U9). -/
inductive RldbFieldOrder where
  /-- bits 7..4 name the source register, bits 3..0 the link register (the default) -/
  | srcThenLink
  /-- bits 7..4 name the link register, bits 3..0 the source register -/
  | linkThenSrc
deriving DecidableEq, Repr

/-- The parameters of a machine that no instruction changes (spec/00_scope.md R7). -/
structure Config where
  variant : Variant
  privTrapPc : PrivTrapPc
  rldbFieldOrder : RldbFieldOrder
  /-- RESET_FCW_ADDR, an offset in segment 0 -/
  resetFcwAddr : Word
  /-- RESET_PC_ADDR, an offset in segment 0 -/
  resetPcAddr : Word
deriving DecidableEq, Repr

/-- The AMZ8001 with every other parameter at its default (R7; reset addresses of spec/70_reset_and_hazards.md R560). -/
def Config.amz8001 : Config :=
  { variant := .amz8001, privTrapPc := .firstWordPlus2, rldbFieldOrder := .srcThenLink,
    resetFcwAddr := 2, resetPcAddr := 4 }

/-- The AMZ8002 with every other parameter at its default (R7; reset addresses of spec/70_reset_and_hazards.md R560). -/
def Config.amz8002 : Config :=
  { variant := .amz8002, privTrapPc := .firstWordPlus2, rldbFieldOrder := .srcThenLink,
    resetFcwAddr := 0, resetPcAddr := 2 }

/-- The free values: the k-th arbitrary value a run draws. `draw_N()` of the spec takes its low N bits (spec/00_scope.md section 5.4:
"an N-bit value the model does not choose and may not assume anything about"). It has no body, so nothing
can be proved of it (log 8). -/
opaque Config.freeValue (k : Nat) : BitVec 16

end Sys2Proof
end

