-- ==== Sys2Proof/Machine/State.lean ====
section
/-! DEFINITION. Everything the spec gives the machine, as plain data (spec/10_state.md; INVENTORY.md "State"), the reasons a
step can stop, and the state after reset. -/

namespace Sys2Proof.Machine

/-- The flag and control word by field (spec/10_state.md R45 to R57; log 22). The five reserved bits hold nothing (R58). -/
structure Fcw where
  /-- segment enable, AMZ8001 only (R46) -/
  seg : Bool
  /-- 1 = system mode (R47) -/
  sn : Bool
  /-- stop enable (R50; log 19) -/
  se : Bool
  /-- vectored interrupt enable (R48) -/
  vie : Bool
  /-- non-vectored interrupt enable (R48) -/
  nvie : Bool
  /-- carry (R52) -/
  c : Bool
  /-- zero (R53) -/
  z : Bool
  /-- sign (R54) -/
  s : Bool
  /-- parity/overflow (R55) -/
  pv : Bool
  /-- decimal adjust (R56) -/
  da : Bool
  /-- half carry (R57) -/
  h : Bool
deriving DecidableEq, Repr

/-- The refresh counter (spec/10_state.md R65). -/
structure Refresh where
  /-- refresh enable (R67) -/
  re : Bool
  /-- the last written rate (R69) -/
  rate : BitVec 6
  /-- the last written row; a read gives a free value (R69) -/
  row : BitVec 9
deriving DecidableEq, Repr

/-- The interrupt requests the outside world presents at one boundary (spec/60_exceptions.md R512), each with the identifier
word its device supplies in the acknowledge cycle (R503). `none`: not presented. -/
structure Requests where
  nmi : Option Word
  vi : Option Word
  nvi : Option Word
deriving DecidableEq, Repr

/-- The two I/O spaces (spec/20_memory.md R84). -/
inductive IoSpace where
  | io
  | sio
deriving DecidableEq, Repr

/-- What the outside world sees the machine do (spec/20_memory.md R84; spec/49_cpu_control.md R455; log 9). -/
inductive OutEvent where
  /-- IORead of a byte: the port is asked; the answer is not part of the event -/
  | askByte (space : IoSpace) (port : Word)
  /-- IORead of a word -/
  | askWord (space : IoSpace) (port : Word)
  /-- IOWrite of a byte -/
  | portByte (space : IoSpace) (port : Word) (v : Byte)
  /-- IOWrite of a word -/
  | portWord (space : IoSpace) (port : Word) (v : Word)
  /-- a write of the multi-micro output line MO -/
  | multiMicro (active : Bool)
deriving DecidableEq, Repr

/-- An address value (spec/00_scope.md section 5.3). On the AMZ8002 the segment is not part of it and is not looked at. -/
structure Address where
  seg : SegNum
  off : Word
deriving DecidableEq, Repr

/-- The memory: the bytes that differ from what an unlisted address reads as, addresses rising (log 2). -/
abbrev Memory := List Host.Cell

/-- The state of the machine. -/
structure State where
  /-- the parameters of the machine (spec/00_scope.md R7), which no instruction changes -/
  cfg : Config
  /-- the physical general registers (spec/10_state.md R20, R30): 0..13 are R0..R13, 14 is Rn14, 15 is Rn15, 16 is Rs14
  (AMZ8001 only), 17 is Rs15 -/
  gr : Vector Word 18
  /-- pc.seg, AMZ8001 only (R35) -/
  pcSeg : SegNum
  /-- pc.off (R35) -/
  pcOff : Word
  fcw : Fcw
  /-- NPSAP.seg, AMZ8001 only (R60) -/
  psapSeg : SegNum
  /-- NPSAP.offhi (R60) -/
  psapOff : Byte
  refresh : Refresh
  /-- after HALT, until an interrupt or a reset (R71; spec/49_cpu_control.md R449) -/
  halted : Bool
  /-- Mem, in canonical form (spec/20_memory.md R80; log 2) -/
  mem : Memory
  /-- the multi-micro output line MO (spec/49_cpu_control.md R455; log 7) -/
  multiMicroOut : Bool
  /-- the events so far, the latest last: the output events of spec/48_input_output.md R412, and the port reads (log 9) -/
  events : List OutEvent
  /-- the interrupt requests at the coming boundaries; none when the list has run out (log 10) -/
  requests : List Requests
  /-- the words the devices answer to the coming port reads; free values when the list has run out (log 9) -/
  portAnswers : List Word
  /-- the model's own: how many free values have been drawn (log 8) -/
  freeIndex : Nat
  /-- the model's own: the addresses of the bytes that the last executed instruction stored, all its iterations together, which
  spec/20_memory.md R103 asks for when the next instruction is fetched (log 12) -/
  stores : List Nat
  /-- the model's own: the last executed instruction is a repeating one that has not met its end condition, so the next step is
  its next iteration and `stores` goes on (spec/47_block_string.md R371; log 12) -/
  repeating : Bool
deriving DecidableEq, Repr

/-- No fault stops this machine: its traps enter a handler and are next states (spec/60_exceptions.md R502, R515). -/
inductive Fault where
deriving DecidableEq, Repr

/-- The spec's `refuse(name)` cases (spec/93_implementation_defined.md section 1), which the spec gives no meaning. All are safe:
the model stops where the hardware would go on. -/
inductive Refusal where
  /-- an instruction without a meaning yet; raised by no instruction of this model; safe -/
  | notModelled (mnemonic : String)
  /-- an encoding that is in no row of the opcode table, or LDCTL with PSAPSEG or NSPSEG on the AMZ8002 (spec/30_encoding.md
  R135; spec/49_cpu_control.md R452); raised by fetching and by LDCTL; safe -/
  | undefinedEncoding
  /-- an odd pair code or a quadruple code that is no multiple of 4 (spec/10_state.md R27); raised by decoding and by the
  register views; safe -/
  | badRegisterCode
  /-- a byte immediate word whose halves differ (spec/40_addressing_modes.md R178); raised by decoding; safe -/
  | badByteImmediate
  /-- a shift count out of range (spec/46_rotate_shift.md R350); raised by decoding and by the shifts; safe -/
  | badShiftCount
  /-- a word or long-word access at an odd address (spec/20_memory.md R90); raised by memory accesses; safe -/
  | misaligned
  /-- an odd value for the PC (spec/10_state.md R39); raised by control transfers; safe -/
  | oddPc
  /-- a 1 for a reserved FCW bit (spec/10_state.md R58); raised by every load of the FCW or of the flag byte; safe -/
  | reservedFcwBit
  /-- the last instruction stored into the one now fetched (spec/20_memory.md R103); raised by fetching; safe -/
  | modifiesNextInstruction
  /-- a divisor of 0 or a quotient that does not fit (spec/42_arithmetic.md R261, R262); raised by DIV and DIVL; safe -/
  | divideCornerCase
  /-- the registers of a block instruction overlap (spec/47_block_string.md R372, R395; spec/48_input_output.md R420); raised
  by the block instructions; safe -/
  | blockRegisterOverlap
  /-- the source of PUSH is or uses the stack pointer (spec/41_load_exchange.md R217); raised by PUSH and PUSHL; safe -/
  | pushOverlapsSp
  /-- the destination of POP is or uses the stack pointer (spec/41_load_exchange.md R216); raised by POP and POPL; safe -/
  | popOverlapsSp
  /-- link and source of RLDB or RRDB are one register (spec/46_rotate_shift.md R346, R347); raised by them; safe -/
  | rldbSameRegister
deriving DecidableEq, Repr

/-- The FCW with every field 0. -/
def Fcw.zero : Fcw :=
  { seg := false, sn := false, se := false, vie := false, nvie := false,
    c := false, z := false, s := false, pv := false, da := false, h := false }

/-- The machine right after reset (spec/70_reset_and_hazards.md R563) with nothing listed in memory: an AMZ8002 (log 1) whose FCW
and PC are the words that the empty memory reads at the reset addresses (log 2), REFRESH.RE set (spec/10_state.md R67), nothing
pending or noted, and 0 wherever the spec gives no value (R75; logs 3, 4, 5, 7, 8, 12). -/
def State.reset : State :=
  { cfg := Config.amz8002,
    gr := Vector.replicate 18 0,
    pcSeg := 0, pcOff := 0,
    fcw := Fcw.zero,
    psapSeg := 0, psapOff := 0,
    refresh := { re := true, rate := 0, row := 0 },
    halted := false,
    mem := [],
    multiMicroOut := false,
    events := [], requests := [], portAnswers := [],
    freeIndex := 0, stores := [], repeating := false }

end Sys2Proof.Machine
end

