-- ==== Sys2Proof/Machine/Flags.lean ====
section
/-! DEFINITION. The flag computations: arithmetic (spec/42_arithmetic.md R241 to R243), logical results (spec/43_logical.md R280),
shifts and rotates (spec/46_rotate_shift.md R342 to R351), decimal adjustment (R252) and the condition codes
(spec/30_encoding.md R140). -/

namespace Sys2Proof.Machine

/-- The result and the flags of an addition or subtraction of n bits (R241, R242). -/
structure AluOut (n : Nat) where
  r : BitVec n
  c : Bool
  z : Bool
  s : Bool
  v : Bool
  h : Bool
deriving DecidableEq, Repr

/-- add_N(a, b, cin) (R241). -/
def addN {n : Nat} (a b : BitVec n) (cin : Bool) : AluOut n :=
  let full := a.toNat + b.toNat + cin.toNat
  let r := BitVec.ofNat n full
  { r := r
    c := decide (2 ^ n ≤ full)
    z := r == 0
    s := r.msb
    v := a.msb == b.msb && r.msb != a.msb
    h := decide (16 ≤ a.toNat % 16 + b.toNat % 16 + cin.toNat) }

/-- sub_N(a, b, bin) (R242): C and H are borrows. -/
def subN {n : Nat} (a b : BitVec n) (bin : Bool) : AluOut n :=
  let r := a - b - BitVec.ofNat n bin.toNat
  { r := r
    c := decide (a.toNat < b.toNat + bin.toNat)
    z := r == 0
    s := r.msb
    v := a.msb != b.msb && r.msb != a.msb
    h := decide (a.toNat % 16 < b.toNat % 16 + bin.toNat) }

/-- parity8(v): true when the number of 1 bits is even (R243). -/
def parity8 (v : BitVec 8) : Bool :=
  !(v.getLsbD 0 ^^ v.getLsbD 1 ^^ v.getLsbD 2 ^^ v.getLsbD 3 ^^ v.getLsbD 4 ^^ v.getLsbD 5 ^^ v.getLsbD 6 ^^ v.getLsbD 7)

/-- C, Z, S and P/V <- V, the others kept: word and long arithmetic, and the compares. -/
def Fcw.arith {n : Nat} (f : Fcw) (o : AluOut n) : Fcw := { f with c := o.c, z := o.z, s := o.s, pv := o.v }

/-- Byte addition: also DA <- 0 and H (spec/42_arithmetic.md R244, R245). -/
def Fcw.arithAddByte (f : Fcw) (o : AluOut 8) : Fcw := { f.arith o with da := false, h := o.h }

/-- Byte subtraction: also DA <- 1 and H (spec/42_arithmetic.md R264, R265). -/
def Fcw.arithSubByte (f : Fcw) (o : AluOut 8) : Fcw := { f.arith o with da := true, h := o.h }

/-- Z, S and P/V <- V, C kept: increments and decrements (spec/42_arithmetic.md R253, R255). -/
def Fcw.step {n : Nat} (f : Fcw) (o : AluOut n) : Fcw := { f with z := o.z, s := o.s, pv := o.v }

/-- logic_flags_N(r) (spec/43_logical.md R280): P/V is the parity for bytes and kept otherwise. -/
def Fcw.logic {n : Nat} (f : Fcw) (r : BitVec n) : Fcw :=
  { f with z := r == 0, s := r.msb, pv := if n = 8 then parity8 (r.setWidth 8) else f.pv }

/-- The flags of a product or quotient p (spec/42_arithmetic.md R257, R258, R261): Z, S of the exact value, P/V <- 0. -/
def Fcw.exact (f : Fcw) (c : Bool) (p : Int) : Fcw := { f with c := c, z := decide (p = 0), s := decide (p < 0), pv := false }

/-- The integer p does not fit n bits signed. -/
def outOfRange (n : Nat) (p : Int) : Bool := decide (p < -(2 ^ (n - 1)) ∨ 2 ^ (n - 1) ≤ p)

/-! ### Condition codes (spec/30_encoding.md R140) -/

/-- The truth of condition code k under the flags C, Z, S, V. -/
def condHolds (k : CondCode) (c z s v : Bool) : Bool :=
  match k.toNat with
  | 0 => false
  | 1 => s ^^ v
  | 2 => z || (s ^^ v)
  | 3 => c || z
  | 4 => v
  | 5 => s
  | 6 => z
  | 7 => c
  | 8 => true
  | 9 => !(s ^^ v)
  | 10 => !(z || (s ^^ v))
  | 11 => !c && !z
  | 12 => !v
  | 13 => !s
  | 14 => !z
  | _ => !c

/-- cc(k). -/
def Fcw.cond (f : Fcw) (k : CondCode) : Bool := condHolds k f.c f.z f.s f.pv

/-! ### Rotates (spec/46_rotate_shift.md R342 to R345): one step, from a value and the carry to a value and the carry -/

/-- The bit c at the bottom. -/
def lowBit (n : Nat) (c : Bool) : BitVec n := (BitVec.ofBool c).setWidth n
/-- The bit c at the top. -/
def topBit (n : Nat) (c : Bool) : BitVec n := lowBit n c <<< (n - 1)

/-- RL (R342). -/
def rotLeft {n : Nat} (v : BitVec n) (_ : Bool) : BitVec n × Bool := (v <<< 1 ||| lowBit n v.msb, v.msb)
/-- RLC (R343). -/
def rotLeftCarry {n : Nat} (v : BitVec n) (c : Bool) : BitVec n × Bool := (v <<< 1 ||| lowBit n c, v.msb)
/-- RR (R344). -/
def rotRight {n : Nat} (v : BitVec n) (_ : Bool) : BitVec n × Bool := (v >>> 1 ||| topBit n (v.getLsbD 0), v.getLsbD 0)
/-- RRC (R345). -/
def rotRightCarry {n : Nat} (v : BitVec n) (c : Bool) : BitVec n × Bool := (v >>> 1 ||| topBit n c, v.getLsbD 0)

/-- A rotate by 1 or by 2. -/
def rotate {n : Nat} (one : BitVec n → Bool → BitVec n × Bool) (two : Bool) (v : BitVec n) (c : Bool) : BitVec n × Bool :=
  let p := one v c
  if two then one p.1 p.2 else p

/-! ### Shifts (spec/46_rotate_shift.md R350, R351) -/

inductive ShiftKind where
  | arithmetic
  | logical
deriving DecidableEq, Repr

/-- shift(kind, v, c) of R351: the result, and the last bit shifted out unless the count is 0. -/
def shiftBy {n : Nat} (kind : ShiftKind) (v : BitVec n) (c : Int) : BitVec n × Option Bool :=
  if c = 0 then (v, none)
  else if 0 < c then (v <<< c.toNat, some (v.getLsbD (n - c.toNat)))
  else
    let k := (-c).toNat
    match kind with
    | .logical => (v >>> k, some (v.getLsbD (k - 1)))
    | .arithmetic => (v.sshiftRight k, some (v.getLsbD (k - 1)))

/-- The sign bit changed at some step of an arithmetic left shift (R352); false for the other counts (R353, R356). -/
def shiftOverflow {n : Nat} (v : BitVec n) (c : Int) : Bool :=
  decide (0 < c) && outOfRange n (v.toInt * 2 ^ c.toNat)

/-! ### Decimal adjustment (spec/42_arithmetic.md R252) -/

/-- A row of the table of R252: the flags before, the ranges of the digits, what is added and C after. -/
structure DabRow where
  da : Bool
  c : Bool
  hiMin : Nat
  hiMax : Nat
  h : Bool
  loMin : Nat
  loMax : Nat
  add : BitVec 8
  cAfter : Bool
deriving DecidableEq, Repr

/-- The table of R252, in its order. -/
def dabTable : List DabRow :=
  [ ⟨false, false, 0, 9, false, 0, 9, 0x00, false⟩,
    ⟨false, false, 0, 8, false, 10, 15, 0x06, false⟩,
    ⟨false, false, 0, 9, true, 0, 3, 0x06, false⟩,
    ⟨false, false, 10, 15, false, 0, 9, 0x60, true⟩,
    ⟨false, false, 9, 15, false, 10, 15, 0x66, true⟩,
    ⟨false, false, 10, 15, true, 0, 3, 0x66, true⟩,
    ⟨false, true, 0, 2, false, 0, 9, 0x60, true⟩,
    ⟨false, true, 0, 2, false, 10, 15, 0x66, true⟩,
    ⟨false, true, 0, 3, true, 0, 3, 0x66, true⟩,
    ⟨true, false, 0, 9, false, 0, 9, 0x00, false⟩,
    ⟨true, false, 0, 8, true, 6, 15, 0xFA, false⟩,
    ⟨true, true, 7, 15, false, 0, 9, 0xA0, true⟩,
    ⟨true, true, 6, 15, true, 6, 15, 0x9A, true⟩ ]

/-- The row for a byte and the flags DA, C and H fits. -/
def DabRow.fits (row : DabRow) (da c h : Bool) (v : BitVec 8) : Bool :=
  let hi := v.toNat / 16
  let lo := v.toNat % 16
  row.da == da && row.c == c && row.h == h && decide (row.hiMin ≤ hi ∧ hi ≤ row.hiMax) && decide (row.loMin ≤ lo ∧ lo ≤ row.loMax)

/-- The row of the table for a byte and the flags, if there is one. -/
def dabRow (da c h : Bool) (v : BitVec 8) : Option DabRow := dabTable.find? fun row => row.fits da c h v

end Sys2Proof.Machine
end

