-- ==== Sys2Proof/Syntax.lean ====
section
/-! DEFINITION. The instructions as syntax: every row of spec/opcode_table.json is one of these constructors with its
operands. Rows of one mnemonic that differ only in the addressing mode of an operand are one constructor, whose operand says
the mode (log 11). Operands stand in the assembler's order, destination first (spec/30_encoding.md R146). -/

namespace Sys2Proof

/-- The address word or words of an instruction (spec/30_encoding.md R117, R118). -/
inductive Addr where
  /-- non-segmented: one 16-bit address word -/
  | plain (off : Word)
  /-- segmented, short offset: segment number and 8-bit offset in one word -/
  | short (seg : SegNum) (off : BitVec 8)
  /-- segmented, long offset: two words -/
  | long (seg : SegNum) (off : Word)
deriving DecidableEq, Repr

/-- A memory operand in IR, DA or X mode (spec/40_addressing_modes.md R155 to R165). -/
inductive MemOp where
  | ir (r : RegCode)
  | da (a : Addr)
  | x (a : Addr) (r : RegCode)
deriving DecidableEq, Repr

/-- An operand in R, IR, DA or X mode. -/
inductive RegMem where
  | reg (r : RegCode)
  | mem (m : MemOp)
deriving DecidableEq, Repr

/-- A source operand of n bits in R, IM, IR, DA or X mode (spec/40_addressing_modes.md R178). -/
inductive Src (n : Nat) where
  | reg (r : RegCode)
  | imm (v : BitVec n)
  | mem (m : MemOp)
deriving DecidableEq, Repr

/-- The memory operand of a load or store: IR, DA, X, BA or BX mode (spec/41_load_exchange.md R203, R205). -/
inductive LdMem where
  | mem (m : MemOp)
  | ba (r : RegCode) (disp : Word)
  | bx (r : RegCode) (x : RegCode)
deriving DecidableEq, Repr

/-- The source of a load of n bits: R, IM, IR, DA, X, BA or BX mode (spec/41_load_exchange.md R203). -/
inductive LdSrc (n : Nat) where
  | reg (r : RegCode)
  | imm (v : BitVec n)
  | mem (m : LdMem)
deriving DecidableEq, Repr

/-- The source of LDA: DA, X, BA or BX mode (spec/41_load_exchange.md R209). -/
inductive LdaSrc where
  | da (a : Addr)
  | x (a : Addr) (r : RegCode)
  | ba (r : RegCode) (disp : Word)
  | bx (r : RegCode) (x : RegCode)
deriving DecidableEq, Repr

/-- The control registers of LDCTL (spec/49_cpu_control.md R452). -/
inductive Ctl where
  | fcw
  | refresh
  | psapseg
  | psapoff
  | nspseg
  | nspoff
deriving DecidableEq, Repr

/-- The instructions. Each constructor's docstring or section names its rule. -/
inductive Instr where
  -- load and exchange (spec/41_load_exchange.md)
  /-- R201 -/
  | clr (dst : RegMem)
  | clrb (dst : RegMem)
  /-- R202 -/
  | ex (d : RegCode) (src : RegMem)
  | exb (d : RegCode) (src : RegMem)
  /-- R203 -/
  | ld (d : RegCode) (src : LdSrc 16)
  | ldb (d : RegCode) (src : LdSrc 8)
  | ldl (d : RegCode) (src : LdSrc 32)
  /-- R204, compact form -/
  | ldbk (d : RegCode) (v : BitVec 8)
  /-- R205 -/
  | ldStore (dst : LdMem) (s : RegCode)
  | ldbStore (dst : LdMem) (s : RegCode)
  | ldlStore (dst : LdMem) (s : RegCode)
  /-- R206 -/
  | ldStoreImm (dst : MemOp) (v : BitVec 16)
  | ldbStoreImm (dst : MemOp) (v : BitVec 8)
  /-- R209 -/
  | lda (d : RegCode) (src : LdaSrc)
  /-- R210 -/
  | ldar (d : RegCode) (disp : Word)
  /-- R211 -/
  | ldk (d : RegCode) (n : BitVec 4)
  /-- R212: n is the count minus 1 -/
  | ldmLoad (d : RegCode) (src : MemOp) (n : BitVec 4)
  /-- R213: n is the count minus 1 -/
  | ldmStore (dst : MemOp) (s : RegCode) (n : BitVec 4)
  /-- R214 -/
  | ldr (d : RegCode) (disp : Word)
  | ldrb (d : RegCode) (disp : Word)
  | ldrl (d : RegCode) (disp : Word)
  | ldrStore (disp : Word) (s : RegCode)
  | ldrbStore (disp : Word) (s : RegCode)
  | ldrlStore (disp : Word) (s : RegCode)
  /-- R216: sp is the stack pointer register -/
  | pop (dst : RegMem) (sp : RegCode)
  | popl (dst : RegMem) (sp : RegCode)
  /-- R217: sp is the stack pointer register -/
  | push (sp : RegCode) (src : RegMem)
  | pushl (sp : RegCode) (src : RegMem)
  | pushImm (sp : RegCode) (v : Word)
  -- arithmetic (spec/42_arithmetic.md)
  /-- R244 -/
  | adc (d s : RegCode)
  | adcb (d s : RegCode)
  /-- R245 -/
  | add (d : RegCode) (src : Src 16)
  | addb (d : RegCode) (src : Src 8)
  | addl (d : RegCode) (src : Src 32)
  /-- R246 -/
  | cp (d : RegCode) (src : Src 16)
  | cpb (d : RegCode) (src : Src 8)
  | cpl (d : RegCode) (src : Src 32)
  /-- R247 -/
  | cpMemImm (dst : MemOp) (v : BitVec 16)
  | cpbMemImm (dst : MemOp) (v : BitVec 8)
  /-- R252 -/
  | dab (d : RegCode)
  /-- R253: n is the decrement minus 1 -/
  | dec (dst : RegMem) (n : BitVec 4)
  | decb (dst : RegMem) (n : BitVec 4)
  /-- R261, R262 -/
  | div (d : RegCode) (src : Src 16)
  | divl (d : RegCode) (src : Src 32)
  /-- R254 -/
  | exts (d : RegCode)
  | extsb (d : RegCode)
  | extsl (d : RegCode)
  /-- R255: n is the increment minus 1 -/
  | inc (dst : RegMem) (n : BitVec 4)
  | incb (dst : RegMem) (n : BitVec 4)
  /-- R257, R258 -/
  | mult (d : RegCode) (src : Src 16)
  | multl (d : RegCode) (src : Src 32)
  /-- R259 -/
  | neg (dst : RegMem)
  | negb (dst : RegMem)
  /-- R264 -/
  | sbc (d s : RegCode)
  | sbcb (d s : RegCode)
  /-- R265 -/
  | sub (d : RegCode) (src : Src 16)
  | subb (d : RegCode) (src : Src 8)
  | subl (d : RegCode) (src : Src 32)
  -- logical (spec/43_logical.md)
  /-- R281 -/
  | and (d : RegCode) (src : Src 16)
  | andb (d : RegCode) (src : Src 8)
  /-- R282 -/
  | com (dst : RegMem)
  | comb (dst : RegMem)
  /-- R283 -/
  | or (d : RegCode) (src : Src 16)
  | orb (d : RegCode) (src : Src 8)
  /-- R284 -/
  | tcc (cc : CondCode) (d : RegCode)
  | tccb (cc : CondCode) (d : RegCode)
  /-- R285 -/
  | test (dst : RegMem)
  | testb (dst : RegMem)
  | testl (dst : RegMem)
  /-- R286 -/
  | xor (d : RegCode) (src : Src 16)
  | xorb (d : RegCode) (src : Src 8)
  -- program control (spec/44_program_control.md)
  /-- R302 -/
  | call (dst : MemOp)
  /-- R303: a signed 12-bit word displacement, subtracted -/
  | calr (disp : BitVec 12)
  /-- R304: a 7-bit word displacement, subtracted -/
  | djnz (r : RegCode) (disp : BitVec 7)
  | dbjnz (r : RegCode) (disp : BitVec 7)
  /-- R305 -/
  | iret
  /-- R306 -/
  | jp (cc : CondCode) (dst : MemOp)
  /-- R307: a signed 8-bit word displacement, added -/
  | jr (cc : CondCode) (disp : BitVec 8)
  /-- R308 -/
  | ret (cc : CondCode)
  /-- R309 -/
  | sc (src : BitVec 8)
  -- bit manipulation (spec/45_bit_manipulation.md)
  /-- R321 -/
  | bit (dst : RegMem) (b : BitVec 4)
  | bitb (dst : RegMem) (b : BitVec 4)
  /-- R322: s is the word register that holds the bit number -/
  | bitDyn (d s : RegCode)
  | bitbDyn (d s : RegCode)
  /-- R323 -/
  | res (dst : RegMem) (b : BitVec 4)
  | resb (dst : RegMem) (b : BitVec 4)
  /-- R324 -/
  | resDyn (d s : RegCode)
  | resbDyn (d s : RegCode)
  /-- R325 -/
  | set (dst : RegMem) (b : BitVec 4)
  | setb (dst : RegMem) (b : BitVec 4)
  /-- R326 -/
  | setDyn (d s : RegCode)
  | setbDyn (d s : RegCode)
  /-- R328 -/
  | tset (dst : RegMem)
  | tsetb (dst : RegMem)
  -- rotate and shift (spec/46_rotate_shift.md)
  /-- R342: two is true for a count of 2 -/
  | rl (d : RegCode) (two : Bool)
  | rlb (d : RegCode) (two : Bool)
  /-- R343 -/
  | rlc (d : RegCode) (two : Bool)
  | rlcb (d : RegCode) (two : Bool)
  /-- R344 -/
  | rr (d : RegCode) (two : Bool)
  | rrb (d : RegCode) (two : Bool)
  /-- R345 -/
  | rrc (d : RegCode) (two : Bool)
  | rrcb (d : RegCode) (two : Bool)
  /-- R346: hi is bits 7..4 and lo bits 3..0 of the word; RLDB_FIELD_ORDER says which one is the link -/
  | rldb (hi lo : RegCode)
  /-- R347 -/
  | rrdb (hi lo : RegCode)
  /-- R352: n is the number of places -/
  | sla (d : RegCode) (n : Nat)
  | slab (d : RegCode) (n : Nat)
  | slal (d : RegCode) (n : Nat)
  /-- R354 -/
  | sll (d : RegCode) (n : Nat)
  | sllb (d : RegCode) (n : Nat)
  | slll (d : RegCode) (n : Nat)
  /-- R353 -/
  | sra (d : RegCode) (n : Nat)
  | srab (d : RegCode) (n : Nat)
  | sral (d : RegCode) (n : Nat)
  /-- R355 -/
  | srl (d : RegCode) (n : Nat)
  | srlb (d : RegCode) (n : Nat)
  | srll (d : RegCode) (n : Nat)
  /-- R356: s is the word register that holds the count -/
  | sda (d s : RegCode)
  | sdab (d s : RegCode)
  | sdal (d s : RegCode)
  /-- R357 -/
  | sdl (d s : RegCode)
  | sdlb (d s : RegCode)
  | sdll (d s : RegCode)
  -- block transfer and string (spec/47_block_string.md): r is the count register
  /-- R374 to R377 -/
  | cpd (d s r : RegCode) (cc : CondCode)
  | cpdb (d s r : RegCode) (cc : CondCode)
  | cpdr (d s r : RegCode) (cc : CondCode)
  | cpdrb (d s r : RegCode) (cc : CondCode)
  | cpi (d s r : RegCode) (cc : CondCode)
  | cpib (d s r : RegCode) (cc : CondCode)
  | cpir (d s r : RegCode) (cc : CondCode)
  | cpirb (d s r : RegCode) (cc : CondCode)
  /-- R378 to R381 -/
  | cpsd (d s r : RegCode) (cc : CondCode)
  | cpsdb (d s r : RegCode) (cc : CondCode)
  | cpsdr (d s r : RegCode) (cc : CondCode)
  | cpsdrb (d s r : RegCode) (cc : CondCode)
  | cpsi (d s r : RegCode) (cc : CondCode)
  | cpsib (d s r : RegCode) (cc : CondCode)
  | cpsir (d s r : RegCode) (cc : CondCode)
  | cpsirb (d s r : RegCode) (cc : CondCode)
  /-- R382 to R385 -/
  | ldd (d s r : RegCode)
  | lddb (d s r : RegCode)
  | lddr (d s r : RegCode)
  | lddrb (d s r : RegCode)
  | ldi (d s r : RegCode)
  | ldib (d s r : RegCode)
  | ldir (d s r : RegCode)
  | ldirb (d s r : RegCode)
  /-- R396 to R399: d addresses the string, s the table -/
  | trdb (d s r : RegCode)
  | trdrb (d s r : RegCode)
  | trib (d s r : RegCode)
  | trirb (d s r : RegCode)
  /-- R400 to R403 -/
  | trtdb (d s r : RegCode)
  | trtdrb (d s r : RegCode)
  | trtib (d s r : RegCode)
  | trtirb (d s r : RegCode)
  -- input/output (spec/48_input_output.md)
  /-- R413 -/
  | inReg (d s : RegCode)
  | inbReg (d s : RegCode)
  /-- R414 -/
  | inPort (d : RegCode) (port : Word)
  | inbPort (d : RegCode) (port : Word)
  /-- R415 -/
  | outReg (d s : RegCode)
  | outbReg (d s : RegCode)
  /-- R416 -/
  | outPort (port : Word) (s : RegCode)
  | outbPort (port : Word) (s : RegCode)
  /-- R417 -/
  | sin (d : RegCode) (port : Word)
  | sinb (d : RegCode) (port : Word)
  /-- R418 -/
  | sout (port : Word) (s : RegCode)
  | soutb (port : Word) (s : RegCode)
  /-- R421: d addresses memory, s holds the port, r the count -/
  | ind (d s r : RegCode)
  | indb (d s r : RegCode)
  | indr (d s r : RegCode)
  | indrb (d s r : RegCode)
  /-- R422 -/
  | ini (d s r : RegCode)
  | inib (d s r : RegCode)
  | inir (d s r : RegCode)
  | inirb (d s r : RegCode)
  /-- R423: d holds the port, s addresses memory, r the count -/
  | outd (d s r : RegCode)
  | outdb (d s r : RegCode)
  | otdr (d s r : RegCode)
  | otdrb (d s r : RegCode)
  /-- R424 -/
  | outi (d s r : RegCode)
  | outib (d s r : RegCode)
  | otir (d s r : RegCode)
  | otirb (d s r : RegCode)
  /-- R425 -/
  | sind (d s r : RegCode)
  | sindb (d s r : RegCode)
  | sindr (d s r : RegCode)
  | sindrb (d s r : RegCode)
  /-- R426 -/
  | sini (d s r : RegCode)
  | sinib (d s r : RegCode)
  | sinir (d s r : RegCode)
  | sinirb (d s r : RegCode)
  /-- R427 -/
  | soutd (d s r : RegCode)
  | soutdb (d s r : RegCode)
  | sotdr (d s r : RegCode)
  | sotdrb (d s r : RegCode)
  /-- R428 -/
  | souti (d s r : RegCode)
  | soutib (d s r : RegCode)
  | sotir (d s r : RegCode)
  | sotirb (d s r : RegCode)
  -- CPU control (spec/49_cpu_control.md)
  /-- R442: bit 3 of f selects C, bit 2 Z, bit 1 S, bit 0 P/V -/
  | comflg (f : BitVec 4)
  /-- R443 -/
  | resflg (f : BitVec 4)
  /-- R444 -/
  | setflg (f : BitVec 4)
  /-- R445: the interrupts selected (the encoding's bits are active low) -/
  | di (vi nvi : Bool)
  /-- R446 -/
  | ei (vi nvi : Bool)
  /-- R449 -/
  | halt
  /-- R450 -/
  | nop
  /-- R452, LDCTL Rd,ctl -/
  | ldctlRead (d : RegCode) (ctl : Ctl)
  /-- R452, LDCTL ctl,Rs -/
  | ldctlWrite (ctl : Ctl) (s : RegCode)
  /-- R453, LDCTLB Rbd,FLAGS -/
  | ldctlbRead (d : RegCode)
  /-- R453, LDCTLB FLAGS,Rbs -/
  | ldctlbWrite (s : RegCode)
  /-- R454 -/
  | ldps (src : MemOp)
  /-- R455 -/
  | mbit
  | mreq (d : RegCode)
  | mres
  | mset
deriving DecidableEq, Repr

end Sys2Proof
end

