-- ==== Sys2Proof/WellFormed.lean ====
section
/-! DEFINITION. Which terms of Instr are instructions: the field restrictions of spec/opcode_table.json ("constraints") and of
the rules, by name of the refusal that the spec gives the encodings that break them. -/

namespace Sys2Proof

/-- Why a word sequence is no instruction, by the spec's names (spec/93_implementation_defined.md section 1). -/
inductive DecodeError where
  /-- an encoding outside spec/opcode_table.json (spec/30_encoding.md R135) -/
  | undefinedEncoding
  /-- an odd pair code, or a quadruple code that is no multiple of 4 (spec/10_state.md R27) -/
  | badRegisterCode
  /-- a byte immediate word whose halves differ (spec/40_addressing_modes.md R178) -/
  | badByteImmediate
  /-- a static shift count out of range (spec/46_rotate_shift.md R350) -/
  | badShiftCount
deriving DecidableEq, Repr

/-- A field that must not be 0000, which selects another mode (spec/30_encoding.md R113). -/
def checkNonzero (r : RegCode) : Option DecodeError :=
  if r = 0 then some .undefinedEncoding else none

/-- A pair code has low bit 0 (spec/10_state.md R24, R27). -/
def checkPair (r : RegCode) : Option DecodeError :=
  if r.getLsbD 0 then some .badRegisterCode else none

/-- A quadruple code has low bits 00 (spec/10_state.md R25, R27). -/
def checkQuad (r : RegCode) : Option DecodeError :=
  if r.getLsbD 0 || r.getLsbD 1 then some .badRegisterCode else none

/-- A word or byte register code: every value names a register (spec/10_state.md R20, R22). -/
def checkAny (_ : RegCode) : Option DecodeError := none

/-- An address register: not 0 and, segmented, a pair (spec/40_addressing_modes.md R153, R156, R170). -/
def checkAddrReg (seg : Bool) (r : RegCode) : Option DecodeError :=
  (checkNonzero r).or (if seg then checkPair r else none)

/-- The form of an address fits the addressing mode in force (spec/30_encoding.md R118, R137). -/
def checkAddr (seg : Bool) : Addr → Option DecodeError
  | .plain _ => if seg then some .undefinedEncoding else none
  | .short _ _ => if seg then none else some .undefinedEncoding
  | .long _ _ => if seg then none else some .undefinedEncoding

def checkMemOp (seg : Bool) : MemOp → Option DecodeError
  | .ir r => checkAddrReg seg r
  | .da a => checkAddr seg a
  | .x a r => (checkAddr seg a).or (checkNonzero r)

/-- `reg` checks the register code of the operand's width. -/
def checkRegMem (seg : Bool) (reg : RegCode → Option DecodeError) : RegMem → Option DecodeError
  | .reg r => reg r
  | .mem m => checkMemOp seg m

def checkSrc {n : Nat} (seg : Bool) (reg : RegCode → Option DecodeError) : Src n → Option DecodeError
  | .reg r => reg r
  | .imm _ => none
  | .mem m => checkMemOp seg m

def checkLdMem (seg : Bool) : LdMem → Option DecodeError
  | .mem m => checkMemOp seg m
  | .ba r _ => checkAddrReg seg r
  | .bx r x => (checkAddrReg seg r).or (checkNonzero x)

def checkLdSrc {n : Nat} (seg : Bool) (reg : RegCode → Option DecodeError) : LdSrc n → Option DecodeError
  | .reg r => reg r
  | .imm _ => none
  | .mem m => checkLdMem seg m

def checkLdaSrc (seg : Bool) : LdaSrc → Option DecodeError
  | .da a => checkAddr seg a
  | .x a r => (checkAddr seg a).or (checkNonzero r)
  | .ba r _ => checkAddrReg seg r
  | .bx r x => (checkAddrReg seg r).or (checkNonzero x)

/-- The destination of LDA and LDAR: a pair when segmented (spec/41_load_exchange.md R209). -/
def checkAddrDst (seg : Bool) (d : RegCode) : Option DecodeError :=
  if seg then checkPair d else none

/-- A static byte form has a bit number 0..7 (spec/45_bit_manipulation.md R320). -/
def checkByteBit (b : BitVec 4) : Option DecodeError :=
  if b.getLsbD 3 then some .undefinedEncoding else none

/-- A static left shift of n places, 0..N (spec/46_rotate_shift.md R350). -/
def checkLeft (width n : Nat) : Option DecodeError :=
  if n ≤ width then none else some .badShiftCount

/-- A static right shift of n places, 1..N (spec/46_rotate_shift.md R350). -/
def checkRight (width n : Nat) : Option DecodeError :=
  if 1 ≤ n ∧ n ≤ width then none else some .badShiftCount

/-- What is wrong with an instruction, `seg` being whether the machine is in segmented operation. Where two checks fail the first
named here gives the refusal its name, which the spec leaves open: DESIGN CHOICE, log 40. So a static byte form of BIT, RES or
SET with a bit number of 8 or more (R320) on an odd IR pair (spec/10_state.md R27) is `badRegisterCode`. -/
def wfError (seg : Bool) : Instr → Option DecodeError
  | .clr dst | .clrb dst => checkRegMem seg checkAny dst
  | .ex _ src | .exb _ src => checkRegMem seg checkAny src
  | .ld _ src => checkLdSrc seg checkAny src
  | .ldb _ src => checkLdSrc seg checkAny src
  | .ldl d src => (checkPair d).or (checkLdSrc seg checkPair src)
  | .ldbk _ _ => none
  | .ldStore dst _ | .ldbStore dst _ => checkLdMem seg dst
  | .ldlStore dst s => (checkLdMem seg dst).or (checkPair s)
  | .ldStoreImm dst _ => checkMemOp seg dst
  | .ldbStoreImm dst _ => checkMemOp seg dst
  | .lda d src => (checkAddrDst seg d).or (checkLdaSrc seg src)
  | .ldar d _ => checkAddrDst seg d
  | .ldk _ _ => none
  | .ldmLoad _ src _ => checkMemOp seg src
  | .ldmStore dst _ _ => checkMemOp seg dst
  | .ldr _ _ | .ldrb _ _ => none
  | .ldrl d _ => checkPair d
  | .ldrStore _ _ | .ldrbStore _ _ => none
  | .ldrlStore _ s => checkPair s
  | .pop dst sp => (checkAddrReg seg sp).or (checkRegMem seg checkAny dst)
  | .popl dst sp => (checkAddrReg seg sp).or (checkRegMem seg checkPair dst)
  | .push sp src => (checkAddrReg seg sp).or (checkRegMem seg checkAny src)
  | .pushl sp src => (checkAddrReg seg sp).or (checkRegMem seg checkPair src)
  | .pushImm sp _ => checkAddrReg seg sp
  | .adc _ _ | .adcb _ _ => none
  | .add _ src | .cp _ src | .sub _ src | .and _ src | .or _ src | .xor _ src => checkSrc seg checkAny src
  | .addb _ src | .cpb _ src | .subb _ src | .andb _ src | .orb _ src | .xorb _ src => checkSrc seg checkAny src
  | .addl d src | .cpl d src | .subl d src => (checkPair d).or (checkSrc seg checkPair src)
  | .cpMemImm dst _ => checkMemOp seg dst
  | .cpbMemImm dst _ => checkMemOp seg dst
  | .dab _ => none
  | .dec dst _ | .decb dst _ | .inc dst _ | .incb dst _ => checkRegMem seg checkAny dst
  | .div d src | .mult d src => (checkPair d).or (checkSrc seg checkAny src)
  | .divl d src | .multl d src => (checkQuad d).or (checkSrc seg checkPair src)
  | .exts d => checkPair d
  | .extsb _ => none
  | .extsl d => checkQuad d
  | .neg dst | .negb dst | .com dst | .comb dst | .test dst | .testb dst | .tset dst | .tsetb dst =>
    checkRegMem seg checkAny dst
  | .testl dst => checkRegMem seg checkPair dst
  | .sbc _ _ | .sbcb _ _ => none
  | .tcc _ _ | .tccb _ _ => none
  | .call dst => checkMemOp seg dst
  | .calr _ | .djnz _ _ | .dbjnz _ _ | .iret => none
  | .jp _ dst => checkMemOp seg dst
  | .jr _ _ | .ret _ | .sc _ => none
  | .bit dst _ | .res dst _ | .set dst _ => checkRegMem seg checkAny dst
  | .bitb dst b | .resb dst b | .setb dst b => (checkRegMem seg checkAny dst).or (checkByteBit b)
  | .bitDyn _ _ | .bitbDyn _ _ | .resDyn _ _ | .resbDyn _ _ | .setDyn _ _ | .setbDyn _ _ => none
  | .rl _ _ | .rlb _ _ | .rlc _ _ | .rlcb _ _ | .rr _ _ | .rrb _ _ | .rrc _ _ | .rrcb _ _ => none
  | .rldb _ _ | .rrdb _ _ => none
  | .sla _ n | .sll _ n => checkLeft 16 n
  | .slab _ n | .sllb _ n => checkLeft 8 n
  | .slal d n | .slll d n => (checkPair d).or (checkLeft 32 n)
  | .sra _ n | .srl _ n => checkRight 16 n
  | .srab _ n | .srlb _ n => checkRight 8 n
  | .sral d n | .srll d n => (checkPair d).or (checkRight 32 n)
  | .sda _ _ | .sdab _ _ | .sdl _ _ | .sdlb _ _ => none
  | .sdal d _ | .sdll d _ => checkPair d
  | .cpd _ s _ _ | .cpdb _ s _ _ | .cpdr _ s _ _ | .cpdrb _ s _ _
  | .cpi _ s _ _ | .cpib _ s _ _ | .cpir _ s _ _ | .cpirb _ s _ _ => checkAddrReg seg s
  | .cpsd d s _ _ | .cpsdb d s _ _ | .cpsdr d s _ _ | .cpsdrb d s _ _
  | .cpsi d s _ _ | .cpsib d s _ _ | .cpsir d s _ _ | .cpsirb d s _ _ =>
    (checkAddrReg seg d).or (checkAddrReg seg s)
  | .ldd d s _ | .lddb d s _ | .lddr d s _ | .lddrb d s _
  | .ldi d s _ | .ldib d s _ | .ldir d s _ | .ldirb d s _
  | .trdb d s _ | .trdrb d s _ | .trib d s _ | .trirb d s _
  | .trtdb d s _ | .trtdrb d s _ | .trtib d s _ | .trtirb d s _ =>
    (checkAddrReg seg d).or (checkAddrReg seg s)
  | .inReg _ s | .inbReg _ s => checkNonzero s
  | .inPort _ _ | .inbPort _ _ => none
  | .outReg d _ | .outbReg d _ => checkNonzero d
  | .outPort _ _ | .outbPort _ _ => none
  | .sin _ _ | .sinb _ _ | .sout _ _ | .soutb _ _ => none
  | .ind d s _ | .indb d s _ | .indr d s _ | .indrb d s _
  | .ini d s _ | .inib d s _ | .inir d s _ | .inirb d s _
  | .sind d s _ | .sindb d s _ | .sindr d s _ | .sindrb d s _
  | .sini d s _ | .sinib d s _ | .sinir d s _ | .sinirb d s _ =>
    (checkAddrReg seg d).or (checkNonzero s)
  | .outd d s _ | .outdb d s _ | .otdr d s _ | .otdrb d s _
  | .outi d s _ | .outib d s _ | .otir d s _ | .otirb d s _
  | .soutd d s _ | .soutdb d s _ | .sotdr d s _ | .sotdrb d s _
  | .souti d s _ | .soutib d s _ | .sotir d s _ | .sotirb d s _ =>
    (checkNonzero d).or (checkAddrReg seg s)
  | .comflg _ | .resflg _ | .setflg _ | .di _ _ | .ei _ _ | .halt | .nop => none
  | .ldctlRead _ _ | .ldctlWrite _ _ | .ldctlbRead _ | .ldctlbWrite _ => none
  | .ldps src => checkMemOp seg src
  | .mbit | .mreq _ | .mres | .mset => none

/-- The instruction is one the encoding admits. -/
abbrev wellFormed (seg : Bool) (i : Instr) : Bool := (wfError seg i).isNone

end Sys2Proof
end

