-- ==== Sys2Proof/Decode.lean ====
section
/-! DEFINITION. The decoder and the encoder, both written from spec/30_encoding.md R111 to R125 and the "Encoding" lines of
files 41 to 49. `seg` is whether the machine is in segmented operation, which changes the address words (R118, R137). -/

namespace Sys2Proof

/-! ### Fields of an instruction word -/

/-- Bits 15..14, the `mode` field (R112). -/
def modeOf (w : Word) : BitVec 2 := w.extractLsb' 14 2
/-- Bits 13..8, the operation with the byte/word bit (R112). -/
def opOf (w : Word) : BitVec 6 := w.extractLsb' 8 6
/-- Bits 15..12. -/
def nib3 (w : Word) : BitVec 4 := w.extractLsb' 12 4
/-- Bits 11..8. -/
def nib2 (w : Word) : BitVec 4 := w.extractLsb' 8 4
/-- Bits 7..4, the field `f1` (R112). -/
def nib1 (w : Word) : BitVec 4 := w.extractLsb' 4 4
/-- Bits 3..0, the field `f0` (R112). -/
def nib0 (w : Word) : BitVec 4 := w.extractLsb' 0 4
/-- Bits 15..8. -/
def hiByte (w : Word) : Byte := w.extractLsb' 8 8
/-- Bits 7..0. -/
def loByte (w : Word) : Byte := w.extractLsb' 0 8

/-- A first word from its four fields (R112). -/
def opWord (mode : BitVec 2) (op : BitVec 6) (f1 f0 : RegCode) : Word := mode ++ op ++ f1 ++ f0

/-- A word from its four nibbles, the second opcode words of R121. -/
def nibWord (a b c d : BitVec 4) : Word := a ++ b ++ c ++ d

/-! ### The decoder -/

/-- What a parser answers: a value and the words after it. -/
abbrev Parsed (α : Type) := α × List Word

/-- An encoding that is in no row of the table (R135). -/
def undef {α : Type} : Except DecodeError (Parsed α) := .error .undefinedEncoding

/-- One word of the instruction. -/
def takeWord : List Word → Except DecodeError (Parsed Word)
  | w :: ws => .ok (w, ws)
  | [] => undef

/-- `FetchAddress` of R118. -/
def takeAddr (seg : Bool) (ws : List Word) : Except DecodeError (Parsed Addr) := do
  let (w, ws) ← takeWord ws
  if seg then
    if w.getLsbD 15 then
      if loByte w = 0 then
        let (off, ws) ← takeWord ws
        .ok (.long (w.extractLsb' 8 7) off, ws)
      else undef
    else .ok (.short (w.extractLsb' 8 7) (loByte w), ws)
  else .ok (.plain w, ws)

/-- The byte immediate word of R116: the byte in both halves. -/
def takeImm8 (ws : List Word) : Except DecodeError (Parsed (BitVec 8)) := do
  let (w, ws) ← takeWord ws
  if hiByte w = loByte w then .ok (loByte w, ws) else .error .badByteImmediate

def takeImm16 (ws : List Word) : Except DecodeError (Parsed (BitVec 16)) := takeWord ws

/-- A 32-bit immediate, high word first (R115). -/
def takeImm32 (ws : List Word) : Except DecodeError (Parsed (BitVec 32)) := do
  let (hi, ws) ← takeWord ws
  let (lo, ws) ← takeWord ws
  .ok (hi ++ lo, ws)

/-- A memory operand in IR, DA or X mode (R113). -/
def takeMem (seg : Bool) (mode : BitVec 2) (f : RegCode) (ws : List Word) : Except DecodeError (Parsed MemOp) :=
  match mode.toNat with
  | 0 => if f = 0 then undef else .ok (.ir f, ws)
  | 1 => do
    let (a, ws) ← takeAddr seg ws
    .ok (if f = 0 then .da a else .x a f, ws)
  | _ => undef

/-- An operand in R, IR, DA or X mode (R113). -/
def takeRegMem (seg : Bool) (mode : BitVec 2) (f : RegCode) (ws : List Word) : Except DecodeError (Parsed RegMem) :=
  if mode = 2 then .ok (.reg f, ws)
  else do
    let (m, ws) ← takeMem seg mode f ws
    .ok (.mem m, ws)

/-- A source operand in R, IM, IR, DA or X mode (R178); `imm` reads an immediate of its width. -/
def takeSrc {n : Nat} (imm : List Word → Except DecodeError (Parsed (BitVec n))) (seg : Bool) (mode : BitVec 2) (f : RegCode) (ws : List Word) :
    Except DecodeError (Parsed (Src n)) :=
  if mode = 2 then .ok (.reg f, ws)
  else if mode = 0 ∧ f = 0 then do
    let (v, ws) ← imm ws
    .ok (.imm v, ws)
  else do
    let (m, ws) ← takeMem seg mode f ws
    .ok (.mem m, ws)

/-- The R, IM, IR, DA and X forms of a load (R203). -/
def takeLdSrc {n : Nat} (imm : List Word → Except DecodeError (Parsed (BitVec n))) (seg : Bool) (mode : BitVec 2) (f : RegCode) (ws : List Word) :
    Except DecodeError (Parsed (LdSrc n)) := do
  let (src, ws) ← takeSrc imm seg mode f ws
  match src with
  | .reg r => .ok (.reg r, ws)
  | .imm v => .ok (.imm v, ws)
  | .mem m => .ok (.mem (.mem m), ws)

/-- The index word of the BX forms: `0000 xxxx 0000 0000`, xxxx not 0 (R119). -/
def takeIndex (ws : List Word) : Except DecodeError (Parsed RegCode) := do
  let (w, ws) ← takeWord ws
  if nib3 w = 0 ∧ loByte w = 0 then .ok (nib2 w, ws) else undef

/-- The second word `0000 dddd 0000 0000` of the dynamic shift and bit forms (R121). A 1 for one of its zeros is refused as
undefined_encoding (R135; spec/46_rotate_shift.md R341); for the dynamic shifts R350 says bad_shift_count, and this choice between the
two names is the model's (DESIGN CHOICE, log 39). -/
def takeDyn (ws : List Word) : Except DecodeError (Parsed RegCode) := takeIndex ws

/-- A parsed value turned into an instruction. -/
def thenInstr {α : Type} (p : Except DecodeError (Parsed α)) (f : α → Instr) : Except DecodeError (Parsed Instr) := do
  let (a, ws) ← p
  .ok (f a, ws)

/-- The sub-opcodes of the groups 0C and 8C, bytes (R125). -/
def parseByteGroup (seg : Bool) (mode : BitVec 2) (f1 f0 : RegCode) (ws : List Word) : Except DecodeError (Parsed Instr) :=
  match f0.toNat with
  | 0 => thenInstr (takeRegMem seg mode f1 ws) .comb
  | 1 =>
    if mode = 2 then .ok (.ldctlbRead f1, ws)
    else do
      let (m, ws) ← takeMem seg mode f1 ws
      let (v, ws) ← takeImm8 ws
      .ok (.cpbMemImm m v, ws)
  | 2 => thenInstr (takeRegMem seg mode f1 ws) .negb
  | 4 => thenInstr (takeRegMem seg mode f1 ws) .testb
  | 5 => do
    let (m, ws) ← takeMem seg mode f1 ws
    let (v, ws) ← takeImm8 ws
    .ok (.ldbStoreImm m v, ws)
  | 6 => thenInstr (takeRegMem seg mode f1 ws) .tsetb
  | 8 => thenInstr (takeRegMem seg mode f1 ws) .clrb
  | 9 => if mode = 2 then .ok (.ldctlbWrite f1, ws) else undef
  | _ => undef

/-- The sub-opcodes of the groups 0D and 8D, words (R125). -/
def parseWordGroup (seg : Bool) (mode : BitVec 2) (f1 f0 : RegCode) (ws : List Word) : Except DecodeError (Parsed Instr) :=
  match f0.toNat with
  | 0 => thenInstr (takeRegMem seg mode f1 ws) .com
  | 1 =>
    if mode = 2 then .ok (.setflg f1, ws)
    else do
      let (m, ws) ← takeMem seg mode f1 ws
      let (v, ws) ← takeImm16 ws
      .ok (.cpMemImm m v, ws)
  | 2 => thenInstr (takeRegMem seg mode f1 ws) .neg
  | 3 => if mode = 2 then .ok (.resflg f1, ws) else undef
  | 4 => thenInstr (takeRegMem seg mode f1 ws) .test
  | 5 =>
    if mode = 2 then .ok (.comflg f1, ws)
    else do
      let (m, ws) ← takeMem seg mode f1 ws
      let (v, ws) ← takeImm16 ws
      .ok (.ldStoreImm m v, ws)
  | 6 => thenInstr (takeRegMem seg mode f1 ws) .tset
  | 7 => if mode = 2 ∧ f1 = 0 then .ok (.nop, ws) else undef
  | 8 => thenInstr (takeRegMem seg mode f1 ws) .clr
  | 9 => if mode = 0 then thenInstr (takeImm16 ws) (.pushImm f1) else undef
  | _ => undef

/-- The group 1C: TESTL and LDM (R125, R121). -/
def parseLongGroup (seg : Bool) (mode : BitVec 2) (f1 f0 : RegCode) (ws : List Word) : Except DecodeError (Parsed Instr) :=
  match f0.toNat with
  | 8 => thenInstr (takeRegMem seg mode f1 ws) .testl
  | 1 => do
    let (w, ws) ← takeWord ws
    let (m, ws) ← takeMem seg mode f1 ws
    if nib3 w = 0 ∧ nib1 w = 0 then .ok (.ldmLoad (nib2 w) m (nib0 w), ws) else undef
  | 9 => do
    let (w, ws) ← takeWord ws
    let (m, ws) ← takeMem seg mode f1 ws
    if nib3 w = 0 ∧ nib1 w = 0 then .ok (.ldmStore m (nib2 w) (nib0 w), ws) else undef
  | _ => undef

/-- A static form in R, IR, DA or X mode, or (IR opcode with field 0000) the dynamic form (R125 rows 22 to 27; R320). -/
def parseBit (static : RegMem → BitVec 4 → Instr) (dynamic : RegCode → RegCode → Instr) (seg : Bool) (mode : BitVec 2)
    (f1 f0 : RegCode) (ws : List Word) : Except DecodeError (Parsed Instr) :=
  if mode = 0 ∧ f1 = 0 then thenInstr (takeDyn ws) fun d => dynamic d f0
  else thenInstr (takeRegMem seg mode f1 ws) fun m => static m f0

/-- Rows 00 to 2F of R125, with the modes 00, 01 and 10. -/
def parseLow (seg : Bool) (mode : BitVec 2) (op : BitVec 6) (f1 f0 : RegCode) (ws : List Word) : Except DecodeError (Parsed Instr) :=
  match op.toNat with
  | 0x00 => thenInstr (takeSrc takeImm8 seg mode f1 ws) (.addb f0)
  | 0x01 => thenInstr (takeSrc takeImm16 seg mode f1 ws) (.add f0)
  | 0x02 => thenInstr (takeSrc takeImm8 seg mode f1 ws) (.subb f0)
  | 0x03 => thenInstr (takeSrc takeImm16 seg mode f1 ws) (.sub f0)
  | 0x04 => thenInstr (takeSrc takeImm8 seg mode f1 ws) (.orb f0)
  | 0x05 => thenInstr (takeSrc takeImm16 seg mode f1 ws) (.or f0)
  | 0x06 => thenInstr (takeSrc takeImm8 seg mode f1 ws) (.andb f0)
  | 0x07 => thenInstr (takeSrc takeImm16 seg mode f1 ws) (.and f0)
  | 0x08 => thenInstr (takeSrc takeImm8 seg mode f1 ws) (.xorb f0)
  | 0x09 => thenInstr (takeSrc takeImm16 seg mode f1 ws) (.xor f0)
  | 0x0A => thenInstr (takeSrc takeImm8 seg mode f1 ws) (.cpb f0)
  | 0x0B => thenInstr (takeSrc takeImm16 seg mode f1 ws) (.cp f0)
  | 0x0C => parseByteGroup seg mode f1 f0 ws
  | 0x0D => parseWordGroup seg mode f1 f0 ws
  | 0x10 => thenInstr (takeSrc takeImm32 seg mode f1 ws) (.cpl f0)
  | 0x11 => thenInstr (takeRegMem seg mode f0 ws) (.pushl f1)
  | 0x12 => thenInstr (takeSrc takeImm32 seg mode f1 ws) (.subl f0)
  | 0x13 => thenInstr (takeRegMem seg mode f0 ws) (.push f1)
  | 0x14 => thenInstr (takeLdSrc takeImm32 seg mode f1 ws) (.ldl f0)
  | 0x15 => thenInstr (takeRegMem seg mode f0 ws) fun m => .popl m f1
  | 0x16 => thenInstr (takeSrc takeImm32 seg mode f1 ws) (.addl f0)
  | 0x17 => thenInstr (takeRegMem seg mode f0 ws) fun m => .pop m f1
  | 0x18 => thenInstr (takeSrc takeImm32 seg mode f1 ws) (.multl f0)
  | 0x19 => thenInstr (takeSrc takeImm16 seg mode f1 ws) (.mult f0)
  | 0x1A => thenInstr (takeSrc takeImm32 seg mode f1 ws) (.divl f0)
  | 0x1B => thenInstr (takeSrc takeImm16 seg mode f1 ws) (.div f0)
  | 0x1C => parseLongGroup seg mode f1 f0 ws
  | 0x1D => thenInstr (takeMem seg mode f1 ws) fun m => .ldlStore (.mem m) f0
  | 0x1E =>
    if mode = 2 then (if f1 = 0 then .ok (.ret f0, ws) else undef)
    else thenInstr (takeMem seg mode f1 ws) (.jp f0)
  | 0x1F => if f0 = 0 then thenInstr (takeMem seg mode f1 ws) .call else undef
  | 0x20 => thenInstr (takeLdSrc takeImm8 seg mode f1 ws) (.ldb f0)
  | 0x21 => thenInstr (takeLdSrc takeImm16 seg mode f1 ws) (.ld f0)
  | 0x22 => parseBit .resb .resbDyn seg mode f1 f0 ws
  | 0x23 => parseBit .res .resDyn seg mode f1 f0 ws
  | 0x24 => parseBit .setb .setbDyn seg mode f1 f0 ws
  | 0x25 => parseBit .set .setDyn seg mode f1 f0 ws
  | 0x26 => parseBit .bitb .bitbDyn seg mode f1 f0 ws
  | 0x27 => parseBit .bit .bitDyn seg mode f1 f0 ws
  | 0x28 => thenInstr (takeRegMem seg mode f1 ws) fun m => .incb m f0
  | 0x29 => thenInstr (takeRegMem seg mode f1 ws) fun m => .inc m f0
  | 0x2A => thenInstr (takeRegMem seg mode f1 ws) fun m => .decb m f0
  | 0x2B => thenInstr (takeRegMem seg mode f1 ws) fun m => .dec m f0
  | 0x2C => thenInstr (takeRegMem seg mode f1 ws) (.exb f0)
  | 0x2D => thenInstr (takeRegMem seg mode f1 ws) (.ex f0)
  | 0x2E =>
    if mode = 2 then .ok (.tccb f0 f1, ws)
    else thenInstr (takeMem seg mode f1 ws) fun m => .ldbStore (.mem m) f0
  | 0x2F =>
    if mode = 2 then .ok (.tcc f0 f1, ws)
    else thenInstr (takeMem seg mode f1 ws) fun m => .ldStore (.mem m) f0
  | _ => undef

/-- A relative form (register field 0000) or a base-address form, each with a displacement word (R113, R119). -/
def parseRelBase (rel : Word → Instr) (base : RegCode → Word → Instr) (f1 : RegCode) (ws : List Word) : Except DecodeError (Parsed Instr) := do
  let (disp, ws) ← takeWord ws
  .ok (if f1 = 0 then rel disp else base f1 disp, ws)

/-- The second word `0000 rrrr dddd t000` of the block I/O forms: t = 1 single, t = 0 repeating (R411). -/
def parseIoBlock (single repeating : RegCode → RegCode → RegCode → Instr) (f1 : RegCode) (ws : List Word) : Except DecodeError (Parsed Instr) := do
  let (w, ws) ← takeWord ws
  if nib3 w = 0 then
    match (nib0 w).toNat with
    | 8 => .ok (single (nib1 w) f1 (nib2 w), ws)
    | 0 => .ok (repeating (nib1 w) f1 (nib2 w), ws)
    | _ => undef
  else undef

/-- The group 3A, bytes (R411). -/
def parseIoByte (f1 f0 : RegCode) (ws : List Word) : Except DecodeError (Parsed Instr) :=
  match f0.toNat with
  | 0 => parseIoBlock .inib .inirb f1 ws
  | 1 => parseIoBlock .sinib .sinirb f1 ws
  | 2 => parseIoBlock .outib .otirb f1 ws
  | 3 => parseIoBlock .soutib .sotirb f1 ws
  | 4 => thenInstr (takeWord ws) (.inbPort f1)
  | 5 => thenInstr (takeWord ws) (.sinb f1)
  | 6 => thenInstr (takeWord ws) fun p => .outbPort p f1
  | 7 => thenInstr (takeWord ws) fun p => .soutb p f1
  | 8 => parseIoBlock .indb .indrb f1 ws
  | 9 => parseIoBlock .sindb .sindrb f1 ws
  | 10 => parseIoBlock .outdb .otdrb f1 ws
  | 11 => parseIoBlock .soutdb .sotdrb f1 ws
  | _ => undef

/-- The group 3B, words (R411). -/
def parseIoWord (f1 f0 : RegCode) (ws : List Word) : Except DecodeError (Parsed Instr) :=
  match f0.toNat with
  | 0 => parseIoBlock .ini .inir f1 ws
  | 1 => parseIoBlock .sini .sinir f1 ws
  | 2 => parseIoBlock .outi .otir f1 ws
  | 3 => parseIoBlock .souti .sotir f1 ws
  | 4 => thenInstr (takeWord ws) (.inPort f1)
  | 5 => thenInstr (takeWord ws) (.sin f1)
  | 6 => thenInstr (takeWord ws) fun p => .outPort p f1
  | 7 => thenInstr (takeWord ws) fun p => .sout p f1
  | 8 => parseIoBlock .ind .indr f1 ws
  | 9 => parseIoBlock .sind .sindr f1 ws
  | 10 => parseIoBlock .outd .otdr f1 ws
  | 11 => parseIoBlock .soutd .sotdr f1 ws
  | _ => undef

/-- Rows 30 to 3F of R125. -/
def parseRow3 (seg : Bool) (op : BitVec 6) (f1 f0 : RegCode) (ws : List Word) : Except DecodeError (Parsed Instr) :=
  match op.toNat with
  | 0x30 => parseRelBase (.ldrb f0) (fun r d => .ldb f0 (.mem (.ba r d))) f1 ws
  | 0x31 => parseRelBase (.ldr f0) (fun r d => .ld f0 (.mem (.ba r d))) f1 ws
  | 0x32 => parseRelBase (fun d => .ldrbStore d f0) (fun r d => .ldbStore (.ba r d) f0) f1 ws
  | 0x33 => parseRelBase (fun d => .ldrStore d f0) (fun r d => .ldStore (.ba r d) f0) f1 ws
  | 0x34 => parseRelBase (.ldar f0) (fun r d => .lda f0 (.ba r d)) f1 ws
  | 0x35 => parseRelBase (.ldrl f0) (fun r d => .ldl f0 (.mem (.ba r d))) f1 ws
  | 0x37 => parseRelBase (fun d => .ldrlStore d f0) (fun r d => .ldlStore (.ba r d) f0) f1 ws
  | 0x39 => if f0 = 0 then thenInstr (takeMem seg 0 f1 ws) .ldps else undef
  | 0x3A => parseIoByte f1 f0 ws
  | 0x3B => parseIoWord f1 f0 ws
  | 0x3C => .ok (.inbReg f0 f1, ws)
  | 0x3D => .ok (.inReg f0 f1, ws)
  | 0x3E => .ok (.outbReg f1 f0, ws)
  | 0x3F => .ok (.outReg f1 f0, ws)
  | _ => undef

/-- The control register codes of LDCTL (R452). -/
def ctlOf (k : BitVec 3) : Option Ctl :=
  match k.toNat with
  | 2 => some .fcw
  | 3 => some .refresh
  | 4 => some .psapseg
  | 5 => some .psapoff
  | 6 => some .nspseg
  | 7 => some .nspoff
  | _ => none

/-- The row 7B (R125). -/
def parseControl (f1 f0 : RegCode) (ws : List Word) : Except DecodeError (Parsed Instr) :=
  match f0.toNat with
  | 0x0 => if f1 = 0 then .ok (.iret, ws) else undef
  | 0x8 => if f1 = 0 then .ok (.mset, ws) else undef
  | 0x9 => if f1 = 0 then .ok (.mres, ws) else undef
  | 0xA => if f1 = 0 then .ok (.mbit, ws) else undef
  | 0xD => .ok (.mreq f1, ws)
  | _ => undef

/-- Rows 70 to 7F of R125. -/
def parseRow7 (seg : Bool) (op : BitVec 6) (f1 f0 : RegCode) (ws : List Word) : Except DecodeError (Parsed Instr) :=
  match op.toNat with
  | 0x30 => thenInstr (takeIndex ws) fun x => .ldb f0 (.mem (.bx f1 x))
  | 0x31 => thenInstr (takeIndex ws) fun x => .ld f0 (.mem (.bx f1 x))
  | 0x32 => thenInstr (takeIndex ws) fun x => .ldbStore (.bx f1 x) f0
  | 0x33 => thenInstr (takeIndex ws) fun x => .ldStore (.bx f1 x) f0
  | 0x34 => thenInstr (takeIndex ws) fun x => .lda f0 (.bx f1 x)
  | 0x35 => thenInstr (takeIndex ws) fun x => .ldl f0 (.mem (.bx f1 x))
  | 0x36 => thenInstr (takeAddr seg ws) fun a => .lda f0 (if f1 = 0 then .da a else .x a f1)
  | 0x37 => thenInstr (takeIndex ws) fun x => .ldlStore (.bx f1 x) f0
  | 0x39 => if f0 = 0 then thenInstr (takeMem seg 1 f1 ws) .ldps else undef
  | 0x3A => if f1 = 0 ∧ f0 = 0 then .ok (.halt, ws) else undef
  | 0x3B => parseControl f1 f0 ws
  | 0x3C =>
    if f1 = 0 ∧ f0.getLsbD 3 = false then
      (if f0.getLsbD 2 then .ok (.ei (!f0.getLsbD 1) (!f0.getLsbD 0), ws)
       else .ok (.di (!f0.getLsbD 1) (!f0.getLsbD 0), ws))
    else undef
  | 0x3D =>
    match ctlOf (f0.extractLsb' 0 3) with
    | some c => if f0.getLsbD 3 then .ok (.ldctlWrite c f1, ws) else .ok (.ldctlRead f1 c, ws)
    | none => undef
  | 0x3F => .ok (.sc (f1 ++ f0), ws)
  | _ => undef

/-- A static shift: the count word says the direction (R350); `byte` for the byte forms. -/
def parseShift (byte : Bool) (left right : Nat → Instr) (ws : List Word) : Except DecodeError (Parsed Instr) := do
  let (w, ws) ← takeWord ws
  if byte then
    if (loByte w).getLsbD 7 then
      (if hiByte w = 0 ∨ hiByte w = 0xFF then .ok (right (256 - (loByte w).toNat), ws) else .error .badShiftCount)
    else if hiByte w = 0 then .ok (left (loByte w).toNat, ws)
    else .error .badShiftCount
  else if w.getLsbD 15 then .ok (right (65536 - w.toNat), ws)
  else .ok (left w.toNat, ws)

/-- The group B2, bytes (spec/46_rotate_shift.md R341). -/
def parseShiftByte (f1 f0 : RegCode) (ws : List Word) : Except DecodeError (Parsed Instr) :=
  match f0.toNat with
  | 0x0 => .ok (.rlb f1 false, ws)
  | 0x2 => .ok (.rlb f1 true, ws)
  | 0x4 => .ok (.rrb f1 false, ws)
  | 0x6 => .ok (.rrb f1 true, ws)
  | 0x8 => .ok (.rlcb f1 false, ws)
  | 0xA => .ok (.rlcb f1 true, ws)
  | 0xC => .ok (.rrcb f1 false, ws)
  | 0xE => .ok (.rrcb f1 true, ws)
  | 0x1 => parseShift true (.sllb f1) (.srlb f1) ws
  | 0x3 => thenInstr (takeDyn ws) (.sdlb f1)
  | 0x9 => parseShift true (.slab f1) (.srab f1) ws
  | 0xB => thenInstr (takeDyn ws) (.sdab f1)
  | _ => undef

/-- The group B3, words and long words (spec/46_rotate_shift.md R341). -/
def parseShiftWord (f1 f0 : RegCode) (ws : List Word) : Except DecodeError (Parsed Instr) :=
  match f0.toNat with
  | 0x0 => .ok (.rl f1 false, ws)
  | 0x2 => .ok (.rl f1 true, ws)
  | 0x4 => .ok (.rr f1 false, ws)
  | 0x6 => .ok (.rr f1 true, ws)
  | 0x8 => .ok (.rlc f1 false, ws)
  | 0xA => .ok (.rlc f1 true, ws)
  | 0xC => .ok (.rrc f1 false, ws)
  | 0xE => .ok (.rrc f1 true, ws)
  | 0x1 => parseShift false (.sll f1) (.srl f1) ws
  | 0x3 => thenInstr (takeDyn ws) (.sdl f1)
  | 0x5 => parseShift false (.slll f1) (.srll f1) ws
  | 0x7 => thenInstr (takeDyn ws) (.sdll f1)
  | 0x9 => parseShift false (.sla f1) (.sra f1) ws
  | 0xB => thenInstr (takeDyn ws) (.sda f1)
  | 0xD => parseShift false (.slal f1) (.sral f1) ws
  | _ => thenInstr (takeDyn ws) (.sdal f1)

/-- The second word `0000 rrrr dddd cccc` of the block compares and the string compares (R121). -/
def parseCompare (f : RegCode → RegCode → RegCode → CondCode → Instr) (f1 : RegCode) (ws : List Word) : Except DecodeError (Parsed Instr) := do
  let (w, ws) ← takeWord ws
  if nib3 w = 0 then .ok (f (nib1 w) f1 (nib2 w) (nib0 w), ws) else undef

/-- The group BA, bytes (spec/47_block_string.md R372). -/
def parseBlockByte (f1 f0 : RegCode) (ws : List Word) : Except DecodeError (Parsed Instr) :=
  match f0.toNat with
  | 0x0 => parseCompare .cpib f1 ws
  | 0x1 => parseIoBlock .ldib .ldirb f1 ws
  | 0x2 => parseCompare .cpsib f1 ws
  | 0x4 => parseCompare .cpirb f1 ws
  | 0x6 => parseCompare .cpsirb f1 ws
  | 0x8 => parseCompare .cpdb f1 ws
  | 0x9 => parseIoBlock .lddb .lddrb f1 ws
  | 0xA => parseCompare .cpsdb f1 ws
  | 0xC => parseCompare .cpdrb f1 ws
  | 0xE => parseCompare .cpsdrb f1 ws
  | _ => undef

/-- The group BB, words (spec/47_block_string.md R372). -/
def parseBlockWord (f1 f0 : RegCode) (ws : List Word) : Except DecodeError (Parsed Instr) :=
  match f0.toNat with
  | 0x0 => parseCompare .cpi f1 ws
  | 0x1 => parseIoBlock .ldi .ldir f1 ws
  | 0x2 => parseCompare .cpsi f1 ws
  | 0x4 => parseCompare .cpir f1 ws
  | 0x6 => parseCompare .cpsir f1 ws
  | 0x8 => parseCompare .cpd f1 ws
  | 0x9 => parseIoBlock .ldd .lddr f1 ws
  | 0xA => parseCompare .cpsd f1 ws
  | 0xC => parseCompare .cpdr f1 ws
  | 0xE => parseCompare .cpsdr f1 ws
  | _ => undef

/-- The second word `0000 rrrr ssss tttt` of the translate group, tttt as R395 fixes it. -/
def parseTr (f : RegCode → RegCode → RegCode → Instr) (t : BitVec 4) (f1 : RegCode) (ws : List Word) : Except DecodeError (Parsed Instr) := do
  let (w, ws) ← takeWord ws
  if nib3 w = 0 ∧ nib0 w = t then .ok (f f1 (nib1 w) (nib2 w), ws) else undef

/-- The group B8 (spec/47_block_string.md R395). -/
def parseTranslate (f1 f0 : RegCode) (ws : List Word) : Except DecodeError (Parsed Instr) :=
  match f0.toNat with
  | 0x0 => parseTr .trib 0 f1 ws
  | 0x2 => parseTr .trtib 0 f1 ws
  | 0x4 => parseTr .trirb 0 f1 ws
  | 0x6 => parseTr .trtirb 0xE f1 ws
  | 0x8 => parseTr .trdb 0 f1 ws
  | 0xA => parseTr .trtdb 0 f1 ws
  | 0xC => parseTr .trdrb 0 f1 ws
  | 0xE => parseTr .trtdrb 0xE f1 ws
  | _ => undef

/-- The row B1 (spec/42_arithmetic.md R254). -/
def parseExtend (f1 f0 : RegCode) (ws : List Word) : Except DecodeError (Parsed Instr) :=
  match f0.toNat with
  | 0x0 => .ok (.extsb f1, ws)
  | 0x7 => .ok (.extsl f1, ws)
  | 0xA => .ok (.exts f1, ws)
  | _ => undef

/-- Rows B0 to BF of R125. -/
def parseRowB (op : BitVec 6) (f1 f0 : RegCode) (ws : List Word) : Except DecodeError (Parsed Instr) :=
  match op.toNat with
  | 0x30 => if f0 = 0 then .ok (.dab f1, ws) else undef
  | 0x31 => parseExtend f1 f0 ws
  | 0x32 => parseShiftByte f1 f0 ws
  | 0x33 => parseShiftWord f1 f0 ws
  | 0x34 => .ok (.adcb f0 f1, ws)
  | 0x35 => .ok (.adc f0 f1, ws)
  | 0x36 => .ok (.sbcb f0 f1, ws)
  | 0x37 => .ok (.sbc f0 f1, ws)
  | 0x38 => parseTranslate f1 f0 ws
  | 0x3A => parseBlockByte f1 f0 ws
  | 0x3B => parseBlockWord f1 f0 ws
  | 0x3C => .ok (.rrdb f1 f0, ws)
  | 0x3D => .ok (.ldk f1 f0, ws)
  | 0x3E => .ok (.rldb f1 f0, ws)
  | _ => undef

/-- The compact formats C0 to FF (R113, R120). -/
def parseCompact (w : Word) (ws : List Word) : Except DecodeError (Parsed Instr) :=
  match (nib3 w).toNat with
  | 0xC => .ok (.ldbk (nib2 w) (loByte w), ws)
  | 0xD => .ok (.calr (w.extractLsb' 0 12), ws)
  | 0xE => .ok (.jr (nib2 w) (loByte w), ws)
  | _ => if w.getLsbD 7 then .ok (.djnz (nib2 w) (w.extractLsb' 0 7), ws) else .ok (.dbjnz (nib2 w) (w.extractLsb' 0 7), ws)

/-- An instruction's words, before its register fields are checked. -/
def parse (seg : Bool) : List Word → Except DecodeError (Parsed Instr)
  | [] => undef
  | w :: ws =>
    if modeOf w = 3 then parseCompact w ws
    else if (opOf w).toNat < 0x30 then parseLow seg (modeOf w) (opOf w) (nib1 w) (nib0 w) ws
    else if modeOf w = 0 then parseRow3 seg (opOf w) (nib1 w) (nib0 w) ws
    else if modeOf w = 1 then parseRow7 seg (opOf w) (nib1 w) (nib0 w) ws
    else parseRowB (opOf w) (nib1 w) (nib0 w) ws

/-- The decoder: the instruction at the head of the words and the words after it, or why there is none. -/
def decode (seg : Bool) (ws : List Word) : Except DecodeError (Parsed Instr) := do
  let (i, rest) ← parse seg ws
  match wfError seg i with
  | none => .ok (i, rest)
  | some e => .error e

/-- The words of a byte sequence, big-endian (spec/20_memory.md R89); an odd last byte is no word. -/
def wordsOf : List Byte → List Word
  | hi :: lo :: bs => (hi ++ lo) :: wordsOf bs
  | _ => []

/-- The bytes of a word sequence, big-endian (spec/20_memory.md R86). -/
def bytesOf : List Word → List Byte
  | [] => []
  | w :: ws => hiByte w :: loByte w :: bytesOf ws

/-- The decoder over bytes as memory holds them. -/
def decodeBytes (seg : Bool) (bs : List Byte) : Except DecodeError (Parsed Instr) := decode seg (wordsOf bs)

/-- The first four words of the number w, which numbers the first word's bits 15..0, the second's 31..16 and so on; the bits
from `nbits` up are 0. Four words is the longest instruction (R111). -/
def tableWords (nbits w : Nat) : List Word :=
  let v := w % 2 ^ nbits
  [BitVec.ofNat 16 v, BitVec.ofNat 16 (v / 2 ^ 16), BitVec.ofNat 16 (v / 2 ^ 32), BitVec.ofNat 16 (v / 2 ^ 48)]

/-- The instruction the decoder reads from an opcode-table word, in non-segmented operation. -/
def decodeTableWord (nbits w : Nat) : Option Instr :=
  match decodeBytes false (bytesOf (tableWords nbits w)) with
  | .ok (i, _) => some i
  | .error _ => none

/-! ### The encoder -/

/-- The address word or words (R118). -/
def Addr.words : Addr → List Word
  | .plain off => [off]
  | .short seg off => [(0#1 ++ seg ++ off : BitVec 16)]
  | .long seg off => [(1#1 ++ seg ++ 0#8 : BitVec 16), off]

def MemOp.mode : MemOp → BitVec 2
  | .ir _ => 0
  | .da _ => 1
  | .x _ _ => 1

def MemOp.field : MemOp → RegCode
  | .ir r => r
  | .da _ => 0
  | .x _ r => r

def MemOp.words : MemOp → List Word
  | .ir _ => []
  | .da a => a.words
  | .x a _ => a.words

def RegMem.mode : RegMem → BitVec 2
  | .reg _ => 2
  | .mem m => m.mode

def RegMem.field : RegMem → RegCode
  | .reg r => r
  | .mem m => m.field

def RegMem.words : RegMem → List Word
  | .reg _ => []
  | .mem m => m.words

def imm8Words (v : BitVec 8) : List Word := [(v ++ v : BitVec 16)]
def imm16Words (v : BitVec 16) : List Word := [v]
def imm32Words (v : BitVec 32) : List Word := [v.extractLsb' 16 16, v.extractLsb' 0 16]

/-- F-RR, F-IM, F-IR, F-DA, F-X (R120): the operand in `f1`, the register d in `f0`. -/
def encSrc {n : Nat} (imm : BitVec n → List Word) (op : BitVec 6) (d : RegCode) : Src n → List Word
  | .reg r => [opWord 2 op r d]
  | .imm v => opWord 0 op 0 d :: imm v
  | .mem m => opWord m.mode op m.field d :: m.words

/-- The operand in `f1`, another field in `f0`. -/
def encRegMem (op : BitVec 6) (f0 : BitVec 4) (m : RegMem) : List Word := opWord m.mode op m.field f0 :: m.words

/-- The operand in `f0`, the stack pointer in `f1` (PUSH, POP). -/
def encStack (op : BitVec 6) (sp : RegCode) (m : RegMem) : List Word := opWord m.mode op sp m.field :: m.words

/-- A memory operand in `f1`, then the words `second` (R121), the address words and the words `last` (R114). -/
def encMem (op : BitVec 6) (f0 : BitVec 4) (m : MemOp) (second last : List Word) : List Word :=
  opWord m.mode op m.field f0 :: (second ++ m.words ++ last)

/-- A load or store of the register d: opcode `op` for IR, DA, X, `opB` for BA and BX (R203, R205). -/
def encLdMem (op opB : BitVec 6) (d : RegCode) : LdMem → List Word
  | .mem m => encMem op d m [] []
  | .ba r disp => [opWord 0 opB r d, disp]
  | .bx r x => [opWord 1 opB r d, nibWord 0 x 0 0]

def encLdSrc {n : Nat} (imm : BitVec n → List Word) (op opB : BitVec 6) (d : RegCode) : LdSrc n → List Word
  | .reg r => [opWord 2 op r d]
  | .imm v => opWord 0 op 0 d :: imm v
  | .mem m => encLdMem op opB d m

def encLda (d : RegCode) : LdaSrc → List Word
  | .da a => opWord 1 0x36 0 d :: a.words
  | .x a r => opWord 1 0x36 r d :: a.words
  | .ba r disp => [opWord 0 0x34 r d, disp]
  | .bx r x => [opWord 1 0x34 r d, nibWord 0 x 0 0]

/-- F-RR of the mode 10 only forms. -/
def encRR (op : BitVec 6) (f1 f0 : BitVec 4) : List Word := [opWord 2 op f1 f0]

/-- A rotate: count minus 1 in bit 1 (spec/46_rotate_shift.md R341). -/
def encRotate (op : BitVec 6) (d : RegCode) (one two : BitVec 4) (count2 : Bool) : List Word :=
  [opWord 2 op d (if count2 then two else one)]

/-- A static shift: the count word c = n to the left (R350). -/
def encLeft (op : BitVec 6) (d : RegCode) (o : BitVec 4) (n : Nat) : List Word := [opWord 2 op d o, BitVec.ofNat 16 n]

/-- A static shift: the count word c = -n to the right, sign-extended to the word also for bytes (R350; log 17). -/
def encRight (op : BitVec 6) (d : RegCode) (o : BitVec 4) (n : Nat) : List Word := [opWord 2 op d o, - BitVec.ofNat 16 n]

/-- A dynamic form: the second word `0000 xxxx 0000 0000` (R121). -/
def encDyn (mode : BitVec 2) (op : BitVec 6) (f1 f0 x : BitVec 4) : List Word := [opWord mode op f1 f0, nibWord 0 x 0 0]

/-- A two-word block form: the second word `0000 rrrr dddd tttt` (R121, R372, R395, R411). -/
def encBlock (mode : BitVec 2) (op : BitVec 6) (f1 o r d t : BitVec 4) : List Word := [opWord mode op f1 o, nibWord 0 r d t]

/-- The code of a control register (R452). -/
def Ctl.code : Ctl → BitVec 3
  | .fcw => 2
  | .refresh => 3
  | .psapseg => 4
  | .psapoff => 5
  | .nspseg => 6
  | .nspoff => 7

/-- The words of an instruction. -/
def encode : Instr → List Word
  | .clr dst => encRegMem 0x0D 8 dst
  | .clrb dst => encRegMem 0x0C 8 dst
  | .ex d src => encRegMem 0x2D d src
  | .exb d src => encRegMem 0x2C d src
  | .ld d src => encLdSrc imm16Words 0x21 0x31 d src
  | .ldb d src => encLdSrc imm8Words 0x20 0x30 d src
  | .ldl d src => encLdSrc imm32Words 0x14 0x35 d src
  | .ldbk d v => [(0xC#4 ++ d ++ v : BitVec 16)]
  | .ldStore dst s => encLdMem 0x2F 0x33 s dst
  | .ldbStore dst s => encLdMem 0x2E 0x32 s dst
  | .ldlStore dst s => encLdMem 0x1D 0x37 s dst
  | .ldStoreImm dst v => encMem 0x0D 5 dst [] (imm16Words v)
  | .ldbStoreImm dst v => encMem 0x0C 5 dst [] (imm8Words v)
  | .lda d src => encLda d src
  | .ldar d disp => [opWord 0 0x34 0 d, disp]
  | .ldk d n => encRR 0x3D d n
  | .ldmLoad d src n => encMem 0x1C 1 src [nibWord 0 d 0 n] []
  | .ldmStore dst s n => encMem 0x1C 9 dst [nibWord 0 s 0 n] []
  | .ldr d disp => [opWord 0 0x31 0 d, disp]
  | .ldrb d disp => [opWord 0 0x30 0 d, disp]
  | .ldrl d disp => [opWord 0 0x35 0 d, disp]
  | .ldrStore disp s => [opWord 0 0x33 0 s, disp]
  | .ldrbStore disp s => [opWord 0 0x32 0 s, disp]
  | .ldrlStore disp s => [opWord 0 0x37 0 s, disp]
  | .pop dst sp => encStack 0x17 sp dst
  | .popl dst sp => encStack 0x15 sp dst
  | .push sp src => encStack 0x13 sp src
  | .pushl sp src => encStack 0x11 sp src
  | .pushImm sp v => [opWord 0 0x0D sp 9, v]
  | .adc d s => encRR 0x35 s d
  | .adcb d s => encRR 0x34 s d
  | .add d src => encSrc imm16Words 0x01 d src
  | .addb d src => encSrc imm8Words 0x00 d src
  | .addl d src => encSrc imm32Words 0x16 d src
  | .cp d src => encSrc imm16Words 0x0B d src
  | .cpb d src => encSrc imm8Words 0x0A d src
  | .cpl d src => encSrc imm32Words 0x10 d src
  | .cpMemImm dst v => encMem 0x0D 1 dst [] (imm16Words v)
  | .cpbMemImm dst v => encMem 0x0C 1 dst [] (imm8Words v)
  | .dab d => encRR 0x30 d 0
  | .dec dst n => encRegMem 0x2B n dst
  | .decb dst n => encRegMem 0x2A n dst
  | .div d src => encSrc imm16Words 0x1B d src
  | .divl d src => encSrc imm32Words 0x1A d src
  | .exts d => encRR 0x31 d 0xA
  | .extsb d => encRR 0x31 d 0
  | .extsl d => encRR 0x31 d 7
  | .inc dst n => encRegMem 0x29 n dst
  | .incb dst n => encRegMem 0x28 n dst
  | .mult d src => encSrc imm16Words 0x19 d src
  | .multl d src => encSrc imm32Words 0x18 d src
  | .neg dst => encRegMem 0x0D 2 dst
  | .negb dst => encRegMem 0x0C 2 dst
  | .sbc d s => encRR 0x37 s d
  | .sbcb d s => encRR 0x36 s d
  | .sub d src => encSrc imm16Words 0x03 d src
  | .subb d src => encSrc imm8Words 0x02 d src
  | .subl d src => encSrc imm32Words 0x12 d src
  | .and d src => encSrc imm16Words 0x07 d src
  | .andb d src => encSrc imm8Words 0x06 d src
  | .com dst => encRegMem 0x0D 0 dst
  | .comb dst => encRegMem 0x0C 0 dst
  | .or d src => encSrc imm16Words 0x05 d src
  | .orb d src => encSrc imm8Words 0x04 d src
  | .tcc cc d => encRR 0x2F d cc
  | .tccb cc d => encRR 0x2E d cc
  | .test dst => encRegMem 0x0D 4 dst
  | .testb dst => encRegMem 0x0C 4 dst
  | .testl dst => encRegMem 0x1C 8 dst
  | .xor d src => encSrc imm16Words 0x09 d src
  | .xorb d src => encSrc imm8Words 0x08 d src
  | .call dst => encMem 0x1F 0 dst [] []
  | .calr disp => [(0xD#4 ++ disp : BitVec 16)]
  | .djnz r disp => [(0xF#4 ++ r ++ 1#1 ++ disp : BitVec 16)]
  | .dbjnz r disp => [(0xF#4 ++ r ++ 0#1 ++ disp : BitVec 16)]
  | .iret => [opWord 1 0x3B 0 0]
  | .jp cc dst => encMem 0x1E cc dst [] []
  | .jr cc disp => [(0xE#4 ++ cc ++ disp : BitVec 16)]
  | .ret cc => encRR 0x1E 0 cc
  | .sc src => [(0x7F#8 ++ src : BitVec 16)]
  | .bit dst b => encRegMem 0x27 b dst
  | .bitb dst b => encRegMem 0x26 b dst
  | .bitDyn d s => encDyn 0 0x27 0 s d
  | .bitbDyn d s => encDyn 0 0x26 0 s d
  | .res dst b => encRegMem 0x23 b dst
  | .resb dst b => encRegMem 0x22 b dst
  | .resDyn d s => encDyn 0 0x23 0 s d
  | .resbDyn d s => encDyn 0 0x22 0 s d
  | .set dst b => encRegMem 0x25 b dst
  | .setb dst b => encRegMem 0x24 b dst
  | .setDyn d s => encDyn 0 0x25 0 s d
  | .setbDyn d s => encDyn 0 0x24 0 s d
  | .tset dst => encRegMem 0x0D 6 dst
  | .tsetb dst => encRegMem 0x0C 6 dst
  | .rl d two => encRotate 0x33 d 0x0 0x2 two
  | .rlb d two => encRotate 0x32 d 0x0 0x2 two
  | .rlc d two => encRotate 0x33 d 0x8 0xA two
  | .rlcb d two => encRotate 0x32 d 0x8 0xA two
  | .rr d two => encRotate 0x33 d 0x4 0x6 two
  | .rrb d two => encRotate 0x32 d 0x4 0x6 two
  | .rrc d two => encRotate 0x33 d 0xC 0xE two
  | .rrcb d two => encRotate 0x32 d 0xC 0xE two
  | .rldb hi lo => encRR 0x3E hi lo
  | .rrdb hi lo => encRR 0x3C hi lo
  | .sla d n => encLeft 0x33 d 0x9 n
  | .slab d n => encLeft 0x32 d 0x9 n
  | .slal d n => encLeft 0x33 d 0xD n
  | .sll d n => encLeft 0x33 d 0x1 n
  | .sllb d n => encLeft 0x32 d 0x1 n
  | .slll d n => encLeft 0x33 d 0x5 n
  | .sra d n => encRight 0x33 d 0x9 n
  | .srab d n => encRight 0x32 d 0x9 n
  | .sral d n => encRight 0x33 d 0xD n
  | .srl d n => encRight 0x33 d 0x1 n
  | .srlb d n => encRight 0x32 d 0x1 n
  | .srll d n => encRight 0x33 d 0x5 n
  | .sda d s => encDyn 2 0x33 d 0xB s
  | .sdab d s => encDyn 2 0x32 d 0xB s
  | .sdal d s => encDyn 2 0x33 d 0xF s
  | .sdl d s => encDyn 2 0x33 d 0x3 s
  | .sdlb d s => encDyn 2 0x32 d 0x3 s
  | .sdll d s => encDyn 2 0x33 d 0x7 s
  | .cpd d s r cc => encBlock 2 0x3B s 0x8 r d cc
  | .cpdb d s r cc => encBlock 2 0x3A s 0x8 r d cc
  | .cpdr d s r cc => encBlock 2 0x3B s 0xC r d cc
  | .cpdrb d s r cc => encBlock 2 0x3A s 0xC r d cc
  | .cpi d s r cc => encBlock 2 0x3B s 0x0 r d cc
  | .cpib d s r cc => encBlock 2 0x3A s 0x0 r d cc
  | .cpir d s r cc => encBlock 2 0x3B s 0x4 r d cc
  | .cpirb d s r cc => encBlock 2 0x3A s 0x4 r d cc
  | .cpsd d s r cc => encBlock 2 0x3B s 0xA r d cc
  | .cpsdb d s r cc => encBlock 2 0x3A s 0xA r d cc
  | .cpsdr d s r cc => encBlock 2 0x3B s 0xE r d cc
  | .cpsdrb d s r cc => encBlock 2 0x3A s 0xE r d cc
  | .cpsi d s r cc => encBlock 2 0x3B s 0x2 r d cc
  | .cpsib d s r cc => encBlock 2 0x3A s 0x2 r d cc
  | .cpsir d s r cc => encBlock 2 0x3B s 0x6 r d cc
  | .cpsirb d s r cc => encBlock 2 0x3A s 0x6 r d cc
  | .ldd d s r => encBlock 2 0x3B s 0x9 r d 8
  | .lddb d s r => encBlock 2 0x3A s 0x9 r d 8
  | .lddr d s r => encBlock 2 0x3B s 0x9 r d 0
  | .lddrb d s r => encBlock 2 0x3A s 0x9 r d 0
  | .ldi d s r => encBlock 2 0x3B s 0x1 r d 8
  | .ldib d s r => encBlock 2 0x3A s 0x1 r d 8
  | .ldir d s r => encBlock 2 0x3B s 0x1 r d 0
  | .ldirb d s r => encBlock 2 0x3A s 0x1 r d 0
  | .trdb d s r => encBlock 2 0x38 d 0x8 r s 0
  | .trdrb d s r => encBlock 2 0x38 d 0xC r s 0
  | .trib d s r => encBlock 2 0x38 d 0x0 r s 0
  | .trirb d s r => encBlock 2 0x38 d 0x4 r s 0
  | .trtdb d s r => encBlock 2 0x38 d 0xA r s 0
  | .trtdrb d s r => encBlock 2 0x38 d 0xE r s 0xE
  | .trtib d s r => encBlock 2 0x38 d 0x2 r s 0
  | .trtirb d s r => encBlock 2 0x38 d 0x6 r s 0xE
  | .inReg d s => [opWord 0 0x3D s d]
  | .inbReg d s => [opWord 0 0x3C s d]
  | .inPort d port => [opWord 0 0x3B d 4, port]
  | .inbPort d port => [opWord 0 0x3A d 4, port]
  | .outReg d s => [opWord 0 0x3F d s]
  | .outbReg d s => [opWord 0 0x3E d s]
  | .outPort port s => [opWord 0 0x3B s 6, port]
  | .outbPort port s => [opWord 0 0x3A s 6, port]
  | .sin d port => [opWord 0 0x3B d 5, port]
  | .sinb d port => [opWord 0 0x3A d 5, port]
  | .sout port s => [opWord 0 0x3B s 7, port]
  | .soutb port s => [opWord 0 0x3A s 7, port]
  | .ind d s r => encBlock 0 0x3B s 0x8 r d 8
  | .indb d s r => encBlock 0 0x3A s 0x8 r d 8
  | .indr d s r => encBlock 0 0x3B s 0x8 r d 0
  | .indrb d s r => encBlock 0 0x3A s 0x8 r d 0
  | .ini d s r => encBlock 0 0x3B s 0x0 r d 8
  | .inib d s r => encBlock 0 0x3A s 0x0 r d 8
  | .inir d s r => encBlock 0 0x3B s 0x0 r d 0
  | .inirb d s r => encBlock 0 0x3A s 0x0 r d 0
  | .outd d s r => encBlock 0 0x3B s 0xA r d 8
  | .outdb d s r => encBlock 0 0x3A s 0xA r d 8
  | .otdr d s r => encBlock 0 0x3B s 0xA r d 0
  | .otdrb d s r => encBlock 0 0x3A s 0xA r d 0
  | .outi d s r => encBlock 0 0x3B s 0x2 r d 8
  | .outib d s r => encBlock 0 0x3A s 0x2 r d 8
  | .otir d s r => encBlock 0 0x3B s 0x2 r d 0
  | .otirb d s r => encBlock 0 0x3A s 0x2 r d 0
  | .sind d s r => encBlock 0 0x3B s 0x9 r d 8
  | .sindb d s r => encBlock 0 0x3A s 0x9 r d 8
  | .sindr d s r => encBlock 0 0x3B s 0x9 r d 0
  | .sindrb d s r => encBlock 0 0x3A s 0x9 r d 0
  | .sini d s r => encBlock 0 0x3B s 0x1 r d 8
  | .sinib d s r => encBlock 0 0x3A s 0x1 r d 8
  | .sinir d s r => encBlock 0 0x3B s 0x1 r d 0
  | .sinirb d s r => encBlock 0 0x3A s 0x1 r d 0
  | .soutd d s r => encBlock 0 0x3B s 0xB r d 8
  | .soutdb d s r => encBlock 0 0x3A s 0xB r d 8
  | .sotdr d s r => encBlock 0 0x3B s 0xB r d 0
  | .sotdrb d s r => encBlock 0 0x3A s 0xB r d 0
  | .souti d s r => encBlock 0 0x3B s 0x3 r d 8
  | .soutib d s r => encBlock 0 0x3A s 0x3 r d 8
  | .sotir d s r => encBlock 0 0x3B s 0x3 r d 0
  | .sotirb d s r => encBlock 0 0x3A s 0x3 r d 0
  | .comflg f => encRR 0x0D f 5
  | .resflg f => encRR 0x0D f 3
  | .setflg f => encRR 0x0D f 1
  | .di vi nvi => [(0x7C0#12 ++ 0#2 ++ BitVec.ofBool (!vi) ++ BitVec.ofBool (!nvi) : BitVec 16)]
  | .ei vi nvi => [(0x7C0#12 ++ 1#2 ++ BitVec.ofBool (!vi) ++ BitVec.ofBool (!nvi) : BitVec 16)]
  | .halt => [opWord 1 0x3A 0 0]
  | .nop => encRR 0x0D 0 7
  | .ldctlRead d c => [(0x7D#8 ++ d ++ 0#1 ++ c.code : BitVec 16)]
  | .ldctlWrite c s => [(0x7D#8 ++ s ++ 1#1 ++ c.code : BitVec 16)]
  | .ldctlbRead d => encRR 0x0C d 1
  | .ldctlbWrite s => encRR 0x0C s 9
  | .ldps src => encMem 0x39 0 src [] []
  | .mbit => [opWord 1 0x3B 0 0xA]
  | .mreq d => [opWord 1 0x3B d 0xD]
  | .mres => [opWord 1 0x3B 0 9]
  | .mset => [opWord 1 0x3B 0 8]

/-- The first word of an instruction, the identifier that its traps push (spec/60_exceptions.md R503). -/
def firstWord (i : Instr) : Word := (encode i).headD 0

/-- The number of words of an instruction (R111). -/
def lengthOf (i : Instr) : Nat := (encode i).length

/-- The first words of the system instructions (the rows marked privileged in spec/opcode_table.json; spec/60_exceptions.md
R504), which alone decide the privilege check (R505). -/
def privilegedFirstWord (w : Word) : Bool :=
  let f1 := nib1 w
  let f0 := nib0 w
  match (hiByte w).toNat with
  | 0x39 => f0 == 0 && f1 != 0
  | 0x3A | 0x3B => f0.toNat < 4 && f1 != 0 || 4 ≤ f0.toNat && f0.toNat < 8 || 8 ≤ f0.toNat && f0.toNat < 12 && f1 != 0
  | 0x3C | 0x3D | 0x3E | 0x3F => f1 != 0
  | 0x79 => f0 == 0
  | 0x7A => f1 == 0 && f0 == 0
  | 0x7B => f1 == 0 && (f0 == 0 || f0 == 8 || f0 == 9 || f0 == 0xA) || f0 == 0xD
  | 0x7C => f1 == 0 && f0.toNat < 8
  | 0x7D => 2 ≤ f0.toNat % 8
  | _ => false

/-- The number of words of the system instruction whose first word is w and whose second word is x, which those two decide whether or
not the rest is an encoding of the table (R111): two in the groups 3A and 3B (spec/48_input_output.md R411), an address after LDPS with
upper byte 79 (R118), else one. -/
def privilegedLength (seg : Bool) (w x : Word) : Nat :=
  match (hiByte w).toNat with
  | 0x3A | 0x3B => 2
  | 0x79 => if seg && x.getLsbD 15 then 3 else 2
  | _ => 1

end Sys2Proof
end

