-- ==== Sys2Proof/Machine/Ops.lean ====
section
/-! DEFINITION. The operations over registers, memory, ports and free values; taking a trap or an interrupt and returning from one;
reset. Every one that the spec can refuse answers in `Except Refusal`. -/

namespace Sys2Proof.Machine

/-- The outcome of an instruction's meaning. -/
def finish : Except Refusal State → Host.Outcome State Fault Refusal
  | .ok s => .next s
  | .error e => .refused e

/-! ### Mode -/

/-- segmented() of spec/40_addressing_modes.md R152. -/
def State.segmented (s : State) : Bool := s.cfg.variant == .amz8001 && s.fcw.seg

def State.setFcw (s : State) (f : Fcw) : State := { s with fcw := f }

/-! ### General registers -/

/-- The physical register that a register code designates (spec/10_state.md R30, R31). -/
def State.phys (s : State) (n : RegCode) : Fin 18 :=
  if n = 14 ∧ s.fcw.sn ∧ s.cfg.variant = .amz8001 then 16
  else if n = 15 ∧ s.fcw.sn then 17
  else ⟨n.toNat, Nat.lt_trans n.isLt (by decide)⟩

/-- R[n]. -/
def State.reg (s : State) (n : RegCode) : Word := s.gr[s.phys n]

/-- R[n] <- v. -/
def State.setReg (s : State) (n : RegCode) (v : Word) : State := { s with gr := s.gr.set (s.phys n) v }

/-- Rn14, the normal-mode R14. -/
def State.rn14 (s : State) : Word := s.gr[14]
/-- Rn15, the normal-mode R15. -/
def State.rn15 (s : State) : Word := s.gr[15]
/-- Rs14, the system-mode R14 of the AMZ8001. -/
def State.rs14 (s : State) : Word := s.gr[16]
/-- Rs15, the system-mode R15. -/
def State.rs15 (s : State) : Word := s.gr[17]

def State.setRn14 (s : State) (v : Word) : State := { s with gr := s.gr.set 14 v }
def State.setRn15 (s : State) (v : Word) : State := { s with gr := s.gr.set 15 v }
def State.setRs15 (s : State) (v : Word) : State := { s with gr := s.gr.set 17 v }

/-- The word register that holds byte register c (spec/10_state.md R22). -/
def byteHome (c : RegCode) : RegCode := 0#1 ++ c.extractLsb' 0 3

/-- The byte of a word that byte code c names: RL is the low byte, RH the high one (spec/10_state.md R23). -/
def byteOf (c : RegCode) (w : Word) : Byte := if c.getLsbD 3 then loByte w else hiByte w

/-- A word with the byte that code c names replaced. -/
def withByte (c : RegCode) (w : Word) (v : Byte) : Word := if c.getLsbD 3 then hiByte w ++ v else v ++ loByte w

/-- RB[c]. -/
def State.rb (s : State) (c : RegCode) : Byte := byteOf c (s.reg (byteHome c))

/-- RB[c] <- v: the other half of the word register is unchanged (spec/10_state.md R23). -/
def State.setRb (s : State) (c : RegCode) (v : Byte) : State := s.setReg (byteHome c) (withByte c (s.reg (byteHome c)) v)

/-- The high half of a long word. -/
def hiWord (v : Long) : Word := v.extractLsb' 16 16
/-- The low half of a long word. -/
def loWord (v : Long) : Word := v.extractLsb' 0 16
/-- The high half of a 64-bit value. -/
def hiLong (v : Quad) : Long := v.extractLsb' 32 32
/-- The low half of a 64-bit value. -/
def loLong (v : Quad) : Long := v.extractLsb' 0 32

/-- RR[n], n even (spec/10_state.md R24). -/
def State.rr (s : State) (n : RegCode) : Long := s.reg n ++ s.reg (n + 1)

/-- RR[n] <- v. -/
def State.setRr (s : State) (n : RegCode) (v : Long) : State := (s.setReg n (hiWord v)).setReg (n + 1) (loWord v)

/-- RQ[n], n a multiple of 4 (spec/10_state.md R25). -/
def State.rq (s : State) (n : RegCode) : Quad := s.rr n ++ s.rr (n + 2)

/-- RQ[n] <- v. -/
def State.setRq (s : State) (n : RegCode) (v : Quad) : State := (s.setRr n (hiLong v)).setRr (n + 2) (loLong v)

/-- A pair code must be even (spec/10_state.md R27). -/
def needPair (n : RegCode) : Except Refusal Unit :=
  if n.getLsbD 0 then .error .badRegisterCode else .ok ()

/-- A quadruple code must be a multiple of 4 (spec/10_state.md R27). -/
def needQuad (n : RegCode) : Except Refusal Unit :=
  if n.getLsbD 0 || n.getLsbD 1 then .error .badRegisterCode else .ok ()

/-! ### Addresses -/

/-- `a + k`: the segment never changes (spec/40_addressing_modes.md R150). -/
def Address.plus (a : Address) (k : Word) : Address := { a with off := a.off + k }

/-- The segment number in a segment word, bits 14..8 (spec/10_state.md R38). -/
def segOf (w : Word) : SegNum := w.extractLsb' 8 7

/-- AddrReg(n) (spec/40_addressing_modes.md R153); without segmentation the segment is the PC's (R152). -/
def State.addrReg (s : State) (n : RegCode) : Except Refusal Address :=
  if s.segmented then
    if n.getLsbD 0 then .error .badRegisterCode
    else .ok { seg := segOf (s.reg n), off := s.reg (n + 1) }
  else .ok { seg := s.pcSeg, off := s.reg n }

/-- The register that holds the offset of address register n. -/
def State.offReg (s : State) (n : RegCode) : RegCode := if s.segmented then n + 1 else n

/-- AutoStep(n, delta): the offset register only (spec/47_block_string.md R370). -/
def State.autoStep (s : State) (n : RegCode) (delta : Word) : State := s.setReg (s.offReg n) (s.reg (s.offReg n) + delta)

/-! ### Memory -/

/-- What an address with nothing listed reads as (log 2). -/
def unlistedByte : Byte := 0

def Memory.read : Memory → Nat → Byte
  | [], _ => unlistedByte
  | (k', v) :: m, k => if k = k' then v else Memory.read m k

/-- A write keeps the canonical form: addresses rising, nothing listed that reads as an unlisted address. -/
def Memory.write : Memory → Nat → Byte → Memory
  | [], k, v => if v = unlistedByte then [] else [(k, v)]
  | (k', v') :: m, k, v =>
    if k < k' then (if v = unlistedByte then (k', v') :: m else (k, v) :: (k', v') :: m)
    else if k = k' then (if v = unlistedByte then m else (k, v) :: m)
    else (k', v') :: Memory.write m k v

/-- The canonical form. -/
def Memory.wf : Memory → Bool
  | [] => true
  | (k, v) :: m => v != unlistedByte && m.all (fun c => decide (k < c.1)) && Memory.wf m

/-- The byte address that an address value names: 23 bits on the AMZ8001, 16 on the AMZ8002 (spec/20_memory.md R80, R81; log 29). -/
def State.key (s : State) (a : Address) : Nat :=
  match s.cfg.variant with
  | .amz8001 => (a.seg ++ a.off).toNat
  | .amz8002 => a.off.toNat

/-- MemRead(a, 1) (spec/20_memory.md R88). -/
def State.readByte (s : State) (a : Address) : Byte := s.mem.read (s.key a)

/-- A word or long word is at an even address (spec/20_memory.md R90). -/
def needEven (a : Address) : Except Refusal Unit :=
  if a.off.getLsbD 0 then .error .misaligned else .ok ()

/-- The word at an even address, big-endian (spec/20_memory.md R86, R88; log 20). -/
def State.wordAt (s : State) (a : Address) : Word := s.readByte a ++ s.readByte (a.plus 1)

/-- The long word at an even address, more significant word first (spec/20_memory.md R87, R92). -/
def State.longAt (s : State) (a : Address) : Long := s.wordAt a ++ s.wordAt (a.plus 2)

/-- MemRead(a, 2). -/
def State.readWord (s : State) (a : Address) : Except Refusal Word := do
  needEven a
  .ok (s.wordAt a)

/-- MemRead(a, 4). -/
def State.readLong (s : State) (a : Address) : Except Refusal Long := do
  needEven a
  .ok (s.longAt a)

/-- MemWrite(a, 1, v), with a note of the address for spec/20_memory.md R103. -/
def State.writeByte (s : State) (a : Address) (v : Byte) : State :=
  { s with mem := s.mem.write (s.key a) v, stores := s.key a :: s.stores }

/-- A word stored at an even address. -/
def State.putWord (s : State) (a : Address) (v : Word) : State :=
  (s.writeByte a (hiByte v)).writeByte (a.plus 1) (loByte v)

/-- A long word stored at an even address. -/
def State.putLong (s : State) (a : Address) (v : Long) : State :=
  (s.putWord a (hiWord v)).putWord (a.plus 2) (loWord v)

/-- MemWrite(a, 2, v). -/
def State.writeWord (s : State) (a : Address) (v : Word) : Except Refusal State := do
  needEven a
  .ok (s.putWord a v)

/-- MemWrite(a, 4, v). -/
def State.writeLong (s : State) (a : Address) (v : Long) : Except Refusal State := do
  needEven a
  .ok (s.putLong a v)

/-! ### Free values (spec/00_scope.md section 5.4; log 8) -/

/-- The next free value, whole: its low N bits are what `draw_N` answers. -/
def State.free (s : State) : Word := Config.freeValue s.freeIndex

/-- The state after a draw. -/
def State.drawn (s : State) : State := { s with freeIndex := s.freeIndex + 1 }

/-- draw_1() as a flag. -/
def State.freeBit (s : State) : Bool := s.free.getLsbD 0

/-- draw_8(). -/
def State.freeByte (s : State) : Byte := loByte s.free

/-- SegWord(n): the spec does not know bit 15 and bits 7..0 (spec/44_program_control.md R301; log 38). Draws twice. -/
def State.segWord (s : State) (n : SegNum) : Word := BitVec.ofBool s.freeBit ++ n ++ s.drawn.freeByte

/-! ### The FCW and the PC -/

/-- FCWword() (spec/49_cpu_control.md R440). -/
def Fcw.word (f : Fcw) : Word :=
  (BitVec.ofBool f.seg ++ BitVec.ofBool f.sn ++ BitVec.ofBool f.se ++ BitVec.ofBool f.vie ++ BitVec.ofBool f.nvie ++ 0#3 ++
   BitVec.ofBool f.c ++ BitVec.ofBool f.z ++ BitVec.ofBool f.s ++ BitVec.ofBool f.pv ++ BitVec.ofBool f.da ++
   BitVec.ofBool f.h ++ 0#2 : BitVec 16)

/-- FLAGSbyte(). -/
def Fcw.flags (f : Fcw) : Byte := loByte f.word

/-- The reserved bits of a flag byte are 0 (spec/10_state.md R58). -/
def flagsReservedClear (b : Byte) : Bool := !b.getLsbD 1 && !b.getLsbD 0

/-- The reserved bits of an FCW word are 0 (spec/10_state.md R58). -/
def fcwReservedClear (w : Word) : Bool :=
  !w.getLsbD 10 && !w.getLsbD 9 && !w.getLsbD 8 && flagsReservedClear (loByte w)

/-- The six flags taken from a flag byte, the control bits kept. -/
def Fcw.withFlags (f : Fcw) (b : Byte) : Fcw :=
  { f with c := b.getLsbD 7, z := b.getLsbD 6, s := b.getLsbD 5, pv := b.getLsbD 4, da := b.getLsbD 3, h := b.getLsbD 2 }

/-- Every field taken from an FCW word; SEG only on the AMZ8001 (spec/49_cpu_control.md R440). -/
def Fcw.ofWord (f : Fcw) (v : Variant) (w : Word) : Fcw :=
  { (f.withFlags (loByte w)) with
    seg := if v = .amz8001 then w.getLsbD 15 else f.seg
    sn := w.getLsbD 14, se := w.getLsbD 13, vie := w.getLsbD 12, nvie := w.getLsbD 11 }

/-- LoadFCW(w) (spec/49_cpu_control.md R440). -/
def State.loadFcw (s : State) (w : Word) : Except Refusal State :=
  if fcwReservedClear w then .ok (s.setFcw (s.fcw.ofWord s.cfg.variant w)) else .error .reservedFcwBit

/-- LoadFLAGS(b) (spec/49_cpu_control.md R440). -/
def State.loadFlags (s : State) (b : Byte) : Except Refusal State :=
  if flagsReservedClear b then .ok (s.setFcw (s.fcw.withFlags b)) else .error .reservedFcwBit

/-- The address the PC holds. -/
def State.pc (s : State) : Address := { seg := s.pcSeg, off := s.pcOff }

/-- pc.off <- x with no check, for values that stay even. -/
def State.movePc (s : State) (x : Word) : State := { s with pcOff := x }

/-- SetPCoff(x) (spec/44_program_control.md R301). -/
def State.setPcOff (s : State) (x : Word) : Except Refusal State :=
  if x.getLsbD 0 then .error .oddPc else .ok (s.movePc x)

/-- A jump to a memory address: the segment only in segmented operation (spec/44_program_control.md R302, R306). -/
def State.jumpTo (s : State) (t : Address) : Except Refusal State :=
  (if s.segmented then { s with pcSeg := t.seg } else s).setPcOff t.off

/-! ### The implied stack (spec/44_program_control.md R301) -/

/-- Push(n, 2, v). -/
def State.pushWord (s : State) (n : RegCode) (v : Word) : Except Refusal State := do
  let sp ← s.addrReg n
  let sp := sp.plus (-2)
  (s.setReg (s.offReg n) sp.off).writeWord sp v

/-- Push(n, 4, v). -/
def State.pushLong (s : State) (n : RegCode) (v : Long) : Except Refusal State := do
  let sp ← s.addrReg n
  let sp := sp.plus (-4)
  (s.setReg (s.offReg n) sp.off).writeLong sp v

/-- Pop(n, 2): the value and the state with the stack pointer moved. -/
def State.popWord (s : State) (n : RegCode) : Except Refusal (Word × State) := do
  let sp ← s.addrReg n
  let v ← s.readWord sp
  .ok (v, s.setReg (s.offReg n) (sp.plus 2).off)

/-- Pop(n, 4). -/
def State.popLong (s : State) (n : RegCode) : Except Refusal (Long × State) := do
  let sp ← s.addrReg n
  let v ← s.readLong sp
  .ok (v, s.setReg (s.offReg n) (sp.plus 4).off)

/-- PushPC(). -/
def State.pushPc (s : State) : Except Refusal State :=
  if s.segmented then s.drawn.drawn.pushLong 14 (s.segWord s.pcSeg ++ s.pcOff) else s.pushWord 15 s.pcOff

/-- PopPC(). -/
def State.popPc (s : State) : Except Refusal State :=
  if s.segmented then do
    let (w, s) ← s.popLong 14
    ({ s with pcSeg := segOf (hiWord w) } : State).setPcOff (loWord w)
  else do
    let (w, s) ← s.popWord 15
    s.setPcOff w

/-! ### Traps and interrupts (spec/60_exceptions.md) -/

/-- The kinds of event that have an entry in the new program status area (R502, R508). -/
inductive TrapKind where
  /-- never raised (R507) -/
  | extendedInstruction
  | privilegedInstruction
  | systemCall
  /-- never raised (R507) -/
  | segmentTrap
  | nmi
  | nvi
  | vi
deriving DecidableEq, Repr

/-- The offset of the new FCW in the area (R520, R521; log 24). -/
def psaFcw (v : Variant) (kind : TrapKind) : Word :=
  match v, kind with
  | .amz8001, .extendedInstruction => 10
  | .amz8001, .privilegedInstruction => 18
  | .amz8001, .systemCall => 26
  | .amz8001, .segmentTrap => 34
  | .amz8001, .nmi => 42
  | .amz8001, .nvi => 50
  | .amz8001, .vi => 58
  | .amz8002, .extendedInstruction => 4
  | .amz8002, .privilegedInstruction => 8
  | .amz8002, .systemCall => 12
  | .amz8002, .segmentTrap => 16
  | .amz8002, .nmi => 20
  | .amz8002, .nvi => 24
  | .amz8002, .vi => 28

/-- The offset of the new PC in the area: after the FCW, for a vectored interrupt further by twice the vector, the low byte of
the identifier (R520, R521). -/
def psaPc (v : Variant) (kind : TrapKind) (ident : Word) : Word :=
  if kind = .vi then psaFcw v kind + 2 + 2 * (loByte ident).setWidth 16 else psaFcw v kind + 2

/-- The word of the new program status area at a byte offset (R522; spec/10_state.md R61). -/
def State.psaWord (s : State) (k : Word) : Except Refusal Word :=
  s.readWord { seg := s.psapSeg, off := (s.psapOff ++ 0#8) + k }

/-- The frame of the AMZ8001, pushed on RR14' (R515): PC offset, PC segment word, FCW, identifier, downwards. `seg` and `off` are the
saved PC, `old` the FCW of the interrupted program. -/
def State.pushFrame8001 (s : State) (seg : SegNum) (off old ident : Word) : Except Refusal State := do
  let sp : Address := { seg := segOf s.rs14, off := s.rs15 }
  let s ← s.writeWord (sp.plus (-2)) off
  let w := s.segWord seg
  let s ← s.drawn.drawn.writeWord (sp.plus (-4)) w
  let s ← s.writeWord (sp.plus (-6)) old
  let s ← s.writeWord (sp.plus (-8)) ident
  .ok (s.setRs15 (sp.plus (-8)).off)

/-- The frame of the AMZ8002, pushed on R15' (R515): PC, FCW, identifier, downwards. -/
def State.pushFrame8002 (s : State) (off old ident : Word) : Except Refusal State := do
  let sp : Address := { seg := s.pcSeg, off := s.rs15 }
  let s ← s.writeWord (sp.plus (-2)) off
  let s ← s.writeWord (sp.plus (-4)) old
  let s ← s.writeWord (sp.plus (-6)) ident
  .ok (s.setRs15 (sp.plus (-6)).off)

/-- The new program status (R515): FCW and PC from the entry of the event. -/
def State.loadEntry (s : State) (kind : TrapKind) (ident : Word) : Except Refusal State := do
  let v := s.cfg.variant
  let w ← s.psaWord (psaFcw v kind)
  match v with
  | .amz8001 => do
    let sg ← s.psaWord (psaPc v kind ident)
    let off ← s.psaWord (psaPc v kind ident + 2)
    let s ← s.loadFcw w
    ({ s with pcSeg := segOf sg } : State).setPcOff off
  | .amz8002 => do
    let off ← s.psaWord (psaPc v kind ident)
    let s ← s.loadFcw w
    s.setPcOff off

/-- TrapEntry(kind, ident, savedpc) (R515): the saved PC is the current segment with the offset `savedOff`. -/
def State.trapEntry (s : State) (kind : TrapKind) (ident savedOff : Word) : Except Refusal State := do
  let old := s.fcw.word
  match s.cfg.variant with
  | .amz8001 => do
    let s ← ({ s with halted := false, fcw := { s.fcw with sn := true, seg := true } } : State).pushFrame8001 s.pcSeg savedOff old ident
    s.loadEntry kind ident
  | .amz8002 => do
    let s ← ({ s with halted := false, fcw := { s.fcw with sn := true } } : State).pushFrame8002 savedOff old ident
    s.loadEntry kind ident

/-- The return from a trap or an interrupt, the operation of IRET in system mode (spec/44_program_control.md R305). -/
def State.returnFromTrap (s : State) : Except Refusal State :=
  if s.segmented then do
    let sp : Address := { seg := segOf s.rs14, off := s.rs15 }
    let _ ← s.readWord sp
    let w ← s.readWord (sp.plus 2)
    let sg ← s.readWord (sp.plus 4)
    let off ← s.readWord (sp.plus 6)
    let s ← (s.setRs15 (s.rs15 + 8)).loadFcw w
    ({ s with pcSeg := segOf sg } : State).setPcOff off
  else do
    let sp : Address := { seg := s.pcSeg, off := s.rs15 }
    let _ ← s.readWord sp
    let w ← s.readWord (sp.plus 2)
    let off ← s.readWord (sp.plus 4)
    let s ← (s.setRs15 (s.rs15 + 6)).loadFcw w
    s.setPcOff off

/-- The PC that the privileged-instruction trap saves, given the PC past all words of an instruction of that many words
(R517, parameter PRIV_TRAP_PC; log 14). -/
def State.privilegedPc (s : State) (words : Nat) : Word :=
  match s.cfg.privTrapPc with
  | .firstWordPlus2 => s.pcOff - 2 * BitVec.ofNat 16 (words - 1)
  | .nextInstruction => s.pcOff

/-- require_system() before the body of the instruction i: in normal mode the privileged-instruction trap (R505). -/
def requireSystem (i : Instr) (s : State) (body : State → Except Refusal State) : Except Refusal State :=
  if s.fcw.sn then body s
  else s.trapEntry .privilegedInstruction (firstWord i) (s.privilegedPc (lengthOf i))

/-! ### Ports (spec/20_memory.md R84; spec/48_input_output.md R412; log 9) -/

/-- The value the device answers to the coming port read: supplied from outside, else free. -/
def State.portValue (s : State) : Word :=
  match s.portAnswers with
  | v :: _ => v
  | [] => s.free

/-- The answer is taken from the list, or the free value is drawn. -/
def State.portTaken (s : State) : State :=
  match s.portAnswers with
  | _ :: vs => { s with portAnswers := vs }
  | [] => s.drawn

/-- An event, recorded in program order. -/
def State.emit (s : State) (e : OutEvent) : State := { s with events := s.events ++ [e] }

/-- The state after a port read, of which e is the event. -/
def State.portRead (s : State) (e : OutEvent) : State := s.portTaken.emit e

/-- MO <- active (spec/49_cpu_control.md R455). -/
def State.setMultiMicro (s : State) (active : Bool) : State := ({ s with multiMicroOut := active } : State).emit (.multiMicro active)

/-! ### Reset (spec/70_reset_and_hazards.md R563) -/

/-- Reset() on a machine whose memory, parameters and devices are those of u, the values of u also standing for every register that
the spec leaves unspecified (log 6). -/
def State.applyReset (u : State) : Except Refusal State := do
  let s : State := { u with
    halted := false, requests := [], stores := [], repeating := false
    refresh := { u.refresh with re := true }
    fcw := { u.fcw with seg := false } }
  let w ← s.readWord { seg := 0, off := s.cfg.resetFcwAddr }
  match s.cfg.variant with
  | .amz8001 => do
    let sg ← s.readWord { seg := 0, off := s.cfg.resetPcAddr }
    let off ← s.readWord { seg := 0, off := s.cfg.resetPcAddr + 2 }
    let s ← s.loadFcw w
    ({ s with pcSeg := segOf sg } : State).setPcOff off
  | .amz8002 => do
    let off ← s.readWord { seg := 0, off := s.cfg.resetPcAddr }
    let s ← s.loadFcw w
    ({ s with pcSeg := 0 } : State).setPcOff off

end Sys2Proof.Machine
end

