-- ==== Sys2Proof/Machine/Operands.lean ====
section
/-! DEFINITION. The operand forms: effective addresses (spec/40_addressing_modes.md R150 to R175), the operand widths (R154) and the
reading and writing of operands (R178). -/

namespace Sys2Proof.Machine

/-! ### Effective addresses -/

/-- FetchAddress() of spec/30_encoding.md R118; a non-segmented address is in the PC's segment (spec/40_addressing_modes.md
R152, R158). -/
def State.addrOf (s : State) : Addr → Address
  | .plain off => { seg := s.pcSeg, off := off }
  | .short seg off => { seg := seg, off := off.setWidth 16 }
  | .long seg off => { seg := seg, off := off }

/-- DstEA (R178): IR (R155, R156), DA (R158) and X (R162 to R164). -/
def State.ea (s : State) : MemOp → Except Refusal Address
  | .ir r => s.addrReg r
  | .da a => .ok (s.addrOf a)
  | .x a r => .ok ((s.addrOf a).plus (s.reg r))

/-- BA (R168): base register plus displacement. -/
def State.eaBa (s : State) (r : RegCode) (disp : Word) : Except Refusal Address := do
  let b ← s.addrReg r
  .ok (b.plus disp)

/-- BX (R172): base register plus index register. -/
def State.eaBx (s : State) (r x : RegCode) : Except Refusal Address := do
  let b ← s.addrReg r
  .ok (b.plus (s.reg x))

/-- RA (R175): the PC past the instruction plus a displacement, in the PC's segment. -/
def State.eaRa (s : State) (disp : Word) : Address := s.pc.plus disp

/-- The effective address of a load or store (spec/41_load_exchange.md R203, R205). -/
def State.eaLd (s : State) : LdMem → Except Refusal Address
  | .mem m => s.ea m
  | .ba r disp => s.eaBa r disp
  | .bx r x => s.eaBx r x

/-- The address that LDA loads (spec/41_load_exchange.md R209). -/
def State.eaLda (s : State) : LdaSrc → Except Refusal Address
  | .da a => .ok (s.addrOf a)
  | .x a r => .ok ((s.addrOf a).plus (s.reg r))
  | .ba r disp => s.eaBa r disp
  | .bx r x => s.eaBx r x

/-! ### Operand widths -/

/-- Access to operands of n bits: Reg_N(code) and the memory operand at an address (R154, R178). -/
structure Width (n : Nat) where
  get : State → RegCode → Except Refusal (BitVec n)
  set : State → RegCode → BitVec n → Except Refusal State
  load : State → Address → Except Refusal (BitVec n)
  store : State → Address → BitVec n → Except Refusal State

/-- Bytes: Reg_8(c) = RB[c]. -/
def byteWidth : Width 8 where
  get s c := .ok (s.rb c)
  set s c v := .ok (s.setRb c v)
  load s a := .ok (s.readByte a)
  store s a v := .ok (s.writeByte a v)

/-- Words: Reg_16(n) = R[n]. -/
def wordWidth : Width 16 where
  get s n := .ok (s.reg n)
  set s n v := .ok (s.setReg n v)
  load s a := s.readWord a
  store s a v := s.writeWord a v

/-- Long words: Reg_32(n) = RR[n], n even (spec/10_state.md R24, R27). -/
def longWidth : Width 32 where
  get s n := do
    needPair n
    .ok (s.rr n)
  set s n v := do
    needPair n
    .ok (s.setRr n v)
  load s a := s.readLong a
  store s a v := s.writeLong a v

/-- Reg_64(n) = RQ[n], n a multiple of 4 (spec/10_state.md R25, R27). -/
def State.getQuad (s : State) (n : RegCode) : Except Refusal Quad := do
  needQuad n
  .ok (s.rq n)

/-- Reg_64(n) <- v. -/
def State.putQuad (s : State) (n : RegCode) (v : Quad) : Except Refusal State := do
  needQuad n
  .ok (s.setRq n v)

/-! ### Reading and writing operands -/

/-- Src(mode, f, N) of R178. -/
def readSrc {n : Nat} (w : Width n) (s : State) : Src n → Except Refusal (BitVec n)
  | .reg r => w.get s r
  | .imm v => .ok v
  | .mem m => do
    let a ← s.ea m
    w.load s a

/-- The source of a load (spec/41_load_exchange.md R203). -/
def readLdSrc {n : Nat} (w : Width n) (s : State) : LdSrc n → Except Refusal (BitVec n)
  | .reg r => w.get s r
  | .imm v => .ok v
  | .mem m => do
    let a ← s.eaLd m
    w.load s a

/-- The value of an R, IR, DA or X operand. -/
def readRegMem {n : Nat} (w : Width n) (s : State) : RegMem → Except Refusal (BitVec n)
  | .reg r => w.get s r
  | .mem m => do
    let a ← s.ea m
    w.load s a

/-- An R, IR, DA or X operand <- v. -/
def writeRegMem {n : Nat} (w : Width n) (s : State) (dst : RegMem) (v : BitVec n) : Except Refusal State :=
  match dst with
  | .reg r => w.set s r v
  | .mem m => do
    let a ← s.ea m
    w.store s a v

/-- Read, modify, write of an R, IR, DA or X operand: the new value is `f` of the old one. -/
def modifyRegMem {n : Nat} (w : Width n) (s : State) (dst : RegMem) (f : BitVec n → BitVec n) : Except Refusal State := do
  let v ← readRegMem w s dst
  writeRegMem w s dst (f v)

end Sys2Proof.Machine
end

