-- ==== Sys2Proof/Machine/Arithmetic.lean ====
section
/-! DEFINITION. The arithmetic instructions (spec/42_arithmetic.md). -/

namespace Sys2Proof.Machine

/-! ### Shared operations -/

/-- Register and source through an adder, the result into the register: R244, R245, R264, R265. -/
def aluReg {n : Nat} (w : Width n) (op : BitVec n → BitVec n → AluOut n) (flags : Fcw → AluOut n → Fcw) (d : RegCode) (src : Src n)
    (s : State) : Except Refusal State := do
  let a ← w.get s d
  let b ← readSrc w s src
  let s' ← w.set s d (op a b).r
  .ok (s'.setFcw (flags s.fcw (op a b)))

/-- The comparison of a value with a value: flags only (R246, R247). -/
def compare {n : Nat} (a b : BitVec n) (s : State) : State := s.setFcw (s.fcw.arith (subN a b false))

/-- CP with a register destination (R246). -/
def compareReg {n : Nat} (w : Width n) (d : RegCode) (src : Src n) (s : State) : Except Refusal State := do
  let a ← w.get s d
  let b ← readSrc w s src
  .ok (compare a b s)

/-- CP of a memory operand with an immediate (R247). -/
def compareMem {n : Nat} (w : Width n) (dst : MemOp) (v : BitVec n) (s : State) : Except Refusal State := do
  let a ← s.ea dst
  let x ← w.load s a
  .ok (compare x v s)

/-- Read, modify, write of an operand through an adder (R253, R255, R259). -/
def aluRegMem {n : Nat} (w : Width n) (op : BitVec n → AluOut n) (flags : Fcw → AluOut n → Fcw) (dst : RegMem) (s : State) :
    Except Refusal State := do
  let v ← readRegMem w s dst
  let s' ← writeRegMem w s dst (op v).r
  .ok (s'.setFcw (flags s.fcw (op v)))

/-- The count of an increment or decrement, of which the field holds the count minus 1, as a number of n bits. -/
def countOf (n : Nat) (k : BitVec 4) : BitVec n := BitVec.ofNat n (k.toNat + 1)

/-! ### ADC, ADD, CP -/

/-- ADC (R244). -/
def execAdc (d r : RegCode) (s : State) : Host.Outcome State Fault Refusal :=
  finish (aluReg wordWidth (fun a b => addN a b s.fcw.c) Fcw.arith d (.reg r) s)
/-- ADCB (R244). -/
def execAdcb (d r : RegCode) (s : State) : Host.Outcome State Fault Refusal :=
  finish (aluReg byteWidth (fun a b => addN a b s.fcw.c) Fcw.arithAddByte d (.reg r) s)
/-- ADD (R245). -/
def execAdd (d : RegCode) (src : Src 16) (s : State) : Host.Outcome State Fault Refusal :=
  finish (aluReg wordWidth (fun a b => addN a b false) Fcw.arith d src s)
/-- ADDB (R245). -/
def execAddb (d : RegCode) (src : Src 8) (s : State) : Host.Outcome State Fault Refusal :=
  finish (aluReg byteWidth (fun a b => addN a b false) Fcw.arithAddByte d src s)
/-- ADDL (R245). -/
def execAddl (d : RegCode) (src : Src 32) (s : State) : Host.Outcome State Fault Refusal :=
  finish (aluReg longWidth (fun a b => addN a b false) Fcw.arith d src s)
/-- CP (R246). -/
def execCp (d : RegCode) (src : Src 16) (s : State) : Host.Outcome State Fault Refusal := finish (compareReg wordWidth d src s)
/-- CPB (R246). -/
def execCpb (d : RegCode) (src : Src 8) (s : State) : Host.Outcome State Fault Refusal := finish (compareReg byteWidth d src s)
/-- CPL (R246). -/
def execCpl (d : RegCode) (src : Src 32) (s : State) : Host.Outcome State Fault Refusal := finish (compareReg longWidth d src s)
/-- CP dst,#imm16 (R247). -/
def execCpMemImm (dst : MemOp) (v : BitVec 16) (s : State) : Host.Outcome State Fault Refusal := finish (compareMem wordWidth dst v s)
/-- CPB dst,#imm8 (R247). -/
def execCpbMemImm (dst : MemOp) (v : BitVec 8) (s : State) : Host.Outcome State Fault Refusal := finish (compareMem byteWidth dst v s)

/-! ### DAB -/

/-- DAB (R252): a row of the table, or drawn values for the inputs of no row; P/V is drawn last in both cases. -/
def execDab (d : RegCode) (s : State) : Host.Outcome State Fault Refusal :=
  let v := s.rb d
  match dabRow s.fcw.da s.fcw.c s.fcw.h v with
  | some row =>
    let r := v + row.add
    finish (.ok ((s.drawn.setRb d r).setFcw { s.fcw with c := row.cAfter, z := r == 0, s := r.msb, pv := s.freeBit }))
  | none =>
    let s1 := s.drawn
    let s2 := s1.drawn
    let s3 := s2.drawn
    let s4 := s3.drawn
    finish (.ok ((s4.drawn.setRb d s.freeByte).setFcw
      { s.fcw with c := s1.freeBit, z := s2.freeBit, s := s3.freeBit, pv := s4.freeBit }))

/-! ### DEC, INC, NEG -/

/-- DEC (R253). -/
def execDec (dst : RegMem) (n : BitVec 4) (s : State) : Host.Outcome State Fault Refusal :=
  finish (aluRegMem wordWidth (fun v => subN v (countOf 16 n) false) Fcw.step dst s)
/-- DECB (R253). -/
def execDecb (dst : RegMem) (n : BitVec 4) (s : State) : Host.Outcome State Fault Refusal :=
  finish (aluRegMem byteWidth (fun v => subN v (countOf 8 n) false) Fcw.step dst s)
/-- INC (R255). -/
def execInc (dst : RegMem) (n : BitVec 4) (s : State) : Host.Outcome State Fault Refusal :=
  finish (aluRegMem wordWidth (fun v => addN v (countOf 16 n) false) Fcw.step dst s)
/-- INCB (R255). -/
def execIncb (dst : RegMem) (n : BitVec 4) (s : State) : Host.Outcome State Fault Refusal :=
  finish (aluRegMem byteWidth (fun v => addN v (countOf 8 n) false) Fcw.step dst s)
/-- NEG (R259). -/
def execNeg (dst : RegMem) (s : State) : Host.Outcome State Fault Refusal :=
  finish (aluRegMem wordWidth (fun v => subN 0 v false) Fcw.arith dst s)
/-- NEGB (R259). -/
def execNegb (dst : RegMem) (s : State) : Host.Outcome State Fault Refusal :=
  finish (aluRegMem byteWidth (fun v => subN 0 v false) Fcw.arith dst s)

/-! ### DIV, MULT, EXTS -/

/-- The quotient and remainder of R261 and R262, refused for a divisor of 0 and for a quotient beyond n bits (log 33). -/
def divide (n : Nat) (x m : Int) : Except Refusal (Int × Int) :=
  if m = 0 then .error .divideCornerCase
  else if outOfRange n (x.tdiv m) then .error .divideCornerCase
  else .ok (x.tdiv m, x.tmod m)

/-- DIV (R261). -/
def execDiv (d : RegCode) (src : Src 16) (s : State) : Host.Outcome State Fault Refusal :=
  finish do
    let x ← longWidth.get s d
    let m ← readSrc wordWidth s src
    let (q, rem) ← divide 16 x.toInt m.toInt
    let s' ← longWidth.set s d (BitVec.ofInt 16 rem ++ BitVec.ofInt 16 q)
    .ok (s'.setFcw (s.fcw.exact false q))
/-- DIVL (R262). -/
def execDivl (d : RegCode) (src : Src 32) (s : State) : Host.Outcome State Fault Refusal :=
  finish do
    let x ← s.getQuad d
    let m ← readSrc longWidth s src
    let (q, rem) ← divide 32 x.toInt m.toInt
    let s' ← s.putQuad d (BitVec.ofInt 32 rem ++ BitVec.ofInt 32 q)
    .ok (s'.setFcw (s.fcw.exact false q))
/-- MULT (R257): the multiplicand is the low word of the pair. -/
def execMult (d : RegCode) (src : Src 16) (s : State) : Host.Outcome State Fault Refusal :=
  finish do
    let a ← longWidth.get s d
    let b ← readSrc wordWidth s src
    let p := (loWord a).toInt * b.toInt
    let s' ← longWidth.set s d (BitVec.ofInt 32 p)
    .ok (s'.setFcw (s.fcw.exact (outOfRange 16 p) p))
/-- MULTL (R258): the multiplicand is the low long word of the quadruple. -/
def execMultl (d : RegCode) (src : Src 32) (s : State) : Host.Outcome State Fault Refusal :=
  finish do
    let a ← s.getQuad d
    let b ← readSrc longWidth s src
    let p := (loLong a).toInt * b.toInt
    let s' ← s.putQuad d (BitVec.ofInt 64 p)
    .ok (s'.setFcw (s.fcw.exact (outOfRange 32 p) p))
/-- EXTS (R254): the low word of a pair extended into it. -/
def execExts (d : RegCode) (s : State) : Host.Outcome State Fault Refusal :=
  finish do
    let a ← longWidth.get s d
    longWidth.set s d ((loWord a).signExtend 32)
/-- EXTSB (R254): bits 7..0 of a word register extended into it. -/
def execExtsb (d : RegCode) (s : State) : Host.Outcome State Fault Refusal :=
  finish (.ok (s.setReg d ((loByte (s.reg d)).signExtend 16)))
/-- EXTSL (R254): the low long word of a quadruple extended into it. -/
def execExtsl (d : RegCode) (s : State) : Host.Outcome State Fault Refusal :=
  finish do
    let a ← s.getQuad d
    s.putQuad d ((loLong a).signExtend 64)

/-! ### SBC, SUB -/

/-- SBC (R264). -/
def execSbc (d r : RegCode) (s : State) : Host.Outcome State Fault Refusal :=
  finish (aluReg wordWidth (fun a b => subN a b s.fcw.c) Fcw.arith d (.reg r) s)
/-- SBCB (R264). -/
def execSbcb (d r : RegCode) (s : State) : Host.Outcome State Fault Refusal :=
  finish (aluReg byteWidth (fun a b => subN a b s.fcw.c) Fcw.arithSubByte d (.reg r) s)
/-- SUB (R265). -/
def execSub (d : RegCode) (src : Src 16) (s : State) : Host.Outcome State Fault Refusal :=
  finish (aluReg wordWidth (fun a b => subN a b false) Fcw.arith d src s)
/-- SUBB (R265). -/
def execSubb (d : RegCode) (src : Src 8) (s : State) : Host.Outcome State Fault Refusal :=
  finish (aluReg byteWidth (fun a b => subN a b false) Fcw.arithSubByte d src s)
/-- SUBL (R265). -/
def execSubl (d : RegCode) (src : Src 32) (s : State) : Host.Outcome State Fault Refusal :=
  finish (aluReg longWidth (fun a b => subN a b false) Fcw.arith d src s)

end Sys2Proof.Machine
end

