-- ==== Sys2Proof/Machine/BitManipulation.lean ====
section
/-! DEFINITION. The bit manipulation instructions (spec/45_bit_manipulation.md). -/

namespace Sys2Proof.Machine

/-! ### Shared operations -/

/-- v with bit b reset. -/
def resetBit {n : Nat} (b : Nat) (v : BitVec n) : BitVec n := v &&& ~~~ BitVec.twoPow n b
/-- v with bit b set. -/
def setBit {n : Nat} (b : Nat) (v : BitVec n) : BitVec n := v ||| BitVec.twoPow n b

/-- Z <- the complement of bit b of the operand (R321, R322). -/
def testBit {n : Nat} (w : Width n) (dst : RegMem) (b : Nat) (s : State) : Except Refusal State := do
  let v ← readRegMem w s dst
  .ok (s.setFcw { s.fcw with z := !v.getLsbD b })

/-- The bit number of a dynamic word form, `R[s][3:0]` (R320). -/
def State.wordBit (s : State) (r : RegCode) : Nat := ((s.reg r).extractLsb' 0 4).toNat
/-- The bit number of a dynamic byte form, `R[s][2:0]` (R320). -/
def State.byteBit (s : State) (r : RegCode) : Nat := ((s.reg r).extractLsb' 0 3).toNat

/-- The operation of R328. -/
def testAndSet {n : Nat} (w : Width n) (dst : RegMem) (s : State) : Except Refusal State := do
  let v ← readRegMem w s dst
  let s' ← writeRegMem w s dst (BitVec.allOnes n)
  .ok (s'.setFcw { s.fcw with s := v.msb })

/-! ### The instructions -/

/-- BIT dst,#b (R321). -/
def execBit (dst : RegMem) (b : BitVec 4) (s : State) : Host.Outcome State Fault Refusal := finish (testBit wordWidth dst b.toNat s)
/-- BITB dst,#b (R321). -/
def execBitb (dst : RegMem) (b : BitVec 4) (s : State) : Host.Outcome State Fault Refusal := finish (testBit byteWidth dst b.toNat s)
/-- BIT Rd,Rs (R322). -/
def execBitDyn (d r : RegCode) (s : State) : Host.Outcome State Fault Refusal := finish (testBit wordWidth (.reg d) (s.wordBit r) s)
/-- BITB Rbd,Rs (R322). -/
def execBitbDyn (d r : RegCode) (s : State) : Host.Outcome State Fault Refusal := finish (testBit byteWidth (.reg d) (s.byteBit r) s)
/-- RES dst,#b (R323). -/
def execRes (dst : RegMem) (b : BitVec 4) (s : State) : Host.Outcome State Fault Refusal :=
  finish (modifyRegMem wordWidth s dst (resetBit b.toNat))
/-- RESB dst,#b (R323). -/
def execResb (dst : RegMem) (b : BitVec 4) (s : State) : Host.Outcome State Fault Refusal :=
  finish (modifyRegMem byteWidth s dst (resetBit b.toNat))
/-- RES Rd,Rs (R324). -/
def execResDyn (d r : RegCode) (s : State) : Host.Outcome State Fault Refusal :=
  finish (modifyRegMem wordWidth s (.reg d) (resetBit (s.wordBit r)))
/-- RESB Rbd,Rs (R324). -/
def execResbDyn (d r : RegCode) (s : State) : Host.Outcome State Fault Refusal :=
  finish (modifyRegMem byteWidth s (.reg d) (resetBit (s.byteBit r)))
/-- SET dst,#b (R325). -/
def execSet (dst : RegMem) (b : BitVec 4) (s : State) : Host.Outcome State Fault Refusal :=
  finish (modifyRegMem wordWidth s dst (setBit b.toNat))
/-- SETB dst,#b (R325). -/
def execSetb (dst : RegMem) (b : BitVec 4) (s : State) : Host.Outcome State Fault Refusal :=
  finish (modifyRegMem byteWidth s dst (setBit b.toNat))
/-- SET Rd,Rs (R326). -/
def execSetDyn (d r : RegCode) (s : State) : Host.Outcome State Fault Refusal :=
  finish (modifyRegMem wordWidth s (.reg d) (setBit (s.wordBit r)))
/-- SETB Rbd,Rs (R326). -/
def execSetbDyn (d r : RegCode) (s : State) : Host.Outcome State Fault Refusal :=
  finish (modifyRegMem byteWidth s (.reg d) (setBit (s.byteBit r)))
/-- TSET (R328). -/
def execTset (dst : RegMem) (s : State) : Host.Outcome State Fault Refusal := finish (testAndSet wordWidth dst s)
/-- TSETB (R328). -/
def execTsetb (dst : RegMem) (s : State) : Host.Outcome State Fault Refusal := finish (testAndSet byteWidth dst s)

end Sys2Proof.Machine
end

