-- ==== Sys2Proof/Machine/CpuControl.lean ====
section
/-! DEFINITION. The CPU control instructions (spec/49_cpu_control.md). -/

namespace Sys2Proof.Machine

/-! ### Flag instructions -/

/-- The flags C, Z, S and P/V that the 4-bit field f selects, changed by g; the others are kept (R442 to R444). -/
def Fcw.selected (f : BitVec 4) (g : Bool → Bool) (w : Fcw) : Fcw :=
  { w with
    c := if f.getLsbD 3 then g w.c else w.c
    z := if f.getLsbD 2 then g w.z else w.z
    s := if f.getLsbD 1 then g w.s else w.s
    pv := if f.getLsbD 0 then g w.pv else w.pv }

/-- COMFLG (R442). -/
def execComflg (f : BitVec 4) (s : State) : Host.Outcome State Fault Refusal := finish (.ok (s.setFcw (s.fcw.selected f (fun b => !b))))
/-- RESFLG (R443). -/
def execResflg (f : BitVec 4) (s : State) : Host.Outcome State Fault Refusal := finish (.ok (s.setFcw (s.fcw.selected f (fun _ => false))))
/-- SETFLG (R444). -/
def execSetflg (f : BitVec 4) (s : State) : Host.Outcome State Fault Refusal := finish (.ok (s.setFcw (s.fcw.selected f (fun _ => true))))

/-! ### Interrupt enables -/

/-- The enables of the interrupts named set to b (R445, R446). -/
def Fcw.enables (vi nvi b : Bool) (w : Fcw) : Fcw :=
  { w with vie := if vi then b else w.vie, nvie := if nvi then b else w.nvie }

/-- DI (R445). -/
def execDi (vi nvi : Bool) (s : State) : Host.Outcome State Fault Refusal :=
  finish (requireSystem (.di vi nvi) s fun s => .ok (s.setFcw (s.fcw.enables vi nvi false)))
/-- EI (R446). -/
def execEi (vi nvi : Bool) (s : State) : Host.Outcome State Fault Refusal :=
  finish (requireSystem (.ei vi nvi) s fun s => .ok (s.setFcw (s.fcw.enables vi nvi true)))

/-! ### HALT, NOP -/

/-- HALT (R449). -/
def execHalt (s : State) : Host.Outcome State Fault Refusal := finish (requireSystem .halt s fun s => .ok { s with halted := true })
/-- NOP (R450). -/
def execNop (s : State) : Host.Outcome State Fault Refusal := finish (.ok s)

/-! ### Control registers -/

/-- The control registers PSAPSEG and NSPSEG exist on the AMZ8001 only (R452; log 18). -/
def needCtl (v : Variant) (c : Ctl) : Except Refusal Unit :=
  if v = .amz8002 ∧ (c = .psapseg ∨ c = .nspseg) then .error .undefinedEncoding else .ok ()

/-- The word that a read of a control register gives (R452); the row field of REFRESH is drawn. -/
def State.ctlWord (s : State) : Ctl → Word
  | .fcw => s.fcw.word
  | .refresh => BitVec.ofBool s.refresh.re ++ s.refresh.rate ++ s.free.extractLsb' 0 9
  | .psapseg => 0#1 ++ s.psapSeg ++ 0#8
  | .psapoff => s.psapOff ++ 0#8
  | .nspseg => s.rn14
  | .nspoff => s.rn15

/-- The state after a read of a control register. -/
def State.ctlRead (s : State) : Ctl → State
  | .refresh => s.drawn
  | .fcw => s
  | .psapseg => s
  | .psapoff => s
  | .nspseg => s
  | .nspoff => s

/-- A write of a control register (R452). -/
def State.ctlWrite (s : State) (c : Ctl) (v : Word) : Except Refusal State :=
  match c with
  | .fcw => s.loadFcw v
  | .refresh => .ok { s with refresh := { re := v.getLsbD 15, rate := v.extractLsb' 9 6, row := v.extractLsb' 0 9 } }
  | .psapseg => .ok { s with psapSeg := segOf v }
  | .psapoff => .ok { s with psapOff := hiByte v }
  | .nspseg => .ok (s.setRn14 v)
  | .nspoff => .ok (s.setRn15 v)

/-- LDCTL Rd,ctl (R452). -/
def execLdctlRead (d : RegCode) (c : Ctl) (s : State) : Host.Outcome State Fault Refusal :=
  finish (requireSystem (.ldctlRead d c) s fun s => do
    needCtl s.cfg.variant c
    .ok ((s.ctlRead c).setReg d (s.ctlWord c)))
/-- LDCTL ctl,Rs (R452). -/
def execLdctlWrite (c : Ctl) (r : RegCode) (s : State) : Host.Outcome State Fault Refusal :=
  finish (requireSystem (.ldctlWrite c r) s fun s => do
    needCtl s.cfg.variant c
    s.ctlWrite c (s.reg r))
/-- LDCTLB Rbd,FLAGS (R453). -/
def execLdctlbRead (d : RegCode) (s : State) : Host.Outcome State Fault Refusal := finish (.ok (s.setRb d s.fcw.flags))
/-- LDCTLB FLAGS,Rbs (R453). -/
def execLdctlbWrite (r : RegCode) (s : State) : Host.Outcome State Fault Refusal := finish (s.loadFlags (s.rb r))

/-- The operation of LDPS on the status block at an address (R454). -/
def State.loadStatus (s : State) (a : Address) : Except Refusal State :=
  if s.segmented then do
    let w ← s.readWord (a.plus 2)
    let sg ← s.readWord (a.plus 4)
    let off ← s.readWord (a.plus 6)
    let s ← s.loadFcw w
    ({ s with pcSeg := segOf sg } : State).setPcOff off
  else do
    let w ← s.readWord a
    let off ← s.readWord (a.plus 2)
    let s ← s.loadFcw w
    s.setPcOff off

/-- LDPS (R454). -/
def execLdps (src : MemOp) (s : State) : Host.Outcome State Fault Refusal :=
  finish (requireSystem (.ldps src) s fun s => do
    let a ← s.ea src
    s.loadStatus a)

/-! ### Multi-microprocessor instructions (R455; log 37) -/

/-- MBIT: the input line MI is a free value. -/
def execMbit (s : State) : Host.Outcome State Fault Refusal :=
  finish (requireSystem .mbit s fun s => .ok (s.drawn.setFcw { s.fcw with s := s.freeBit }))
/-- MREQ: Z, S, the register and MO are drawn, in this order. -/
def execMreq (d : RegCode) (s : State) : Host.Outcome State Fault Refusal :=
  finish (requireSystem (.mreq d) s fun s =>
    let s1 := s.drawn
    let s2 := s1.drawn
    let s3 := s2.drawn
    .ok (((s3.drawn.setReg d s2.free).setFcw { s.fcw with z := s.freeBit, s := s1.freeBit }).setMultiMicro s3.freeBit))
/-- MRES. -/
def execMres (s : State) : Host.Outcome State Fault Refusal := finish (requireSystem .mres s fun s => .ok (s.setMultiMicro false))
/-- MSET. -/
def execMset (s : State) : Host.Outcome State Fault Refusal := finish (requireSystem .mset s fun s => .ok (s.setMultiMicro true))

end Sys2Proof.Machine
end

