-- ==== Sys2Proof/Machine/LoadExchange.lean ====
section
/-! DEFINITION. The load and exchange instructions (spec/41_load_exchange.md). In every meaning the PC is already past all words of
the instruction. -/

namespace Sys2Proof.Machine

/-! ### Shared operations -/

/-- The operation of R202. -/
def exchange {n : Nat} (w : Width n) (d : RegCode) (src : RegMem) (s : State) : Except Refusal State :=
  match src with
  | .reg r => do
    let t ← w.get s r
    let v ← w.get s d
    let s ← w.set s r v
    w.set s d t
  | .mem m => do
    let a ← s.ea m
    let t ← w.load s a
    let v ← w.get s d
    let s ← w.store s a v
    w.set s d t

/-- The operation of R203. -/
def loadReg {n : Nat} (w : Width n) (d : RegCode) (src : LdSrc n) (s : State) : Except Refusal State := do
  let v ← readLdSrc w s src
  w.set s d v

/-- The operation of R205. -/
def storeReg {n : Nat} (w : Width n) (dst : LdMem) (r : RegCode) (s : State) : Except Refusal State := do
  let a ← s.eaLd dst
  let v ← w.get s r
  w.store s a v

/-- The operation of R206. -/
def storeImm {n : Nat} (w : Width n) (dst : MemOp) (v : BitVec n) (s : State) : Except Refusal State := do
  let a ← s.ea dst
  w.store s a v

/-- An address loaded into an address-sized register (R209). -/
def putAddr (d : RegCode) (a : Address) (s : State) : Except Refusal State :=
  if s.segmented then do
    needPair d
    .ok ((s.drawn.drawn.setReg d (s.segWord a.seg)).setReg (d + 1) a.off)
  else .ok (s.setReg d a.off)

/-- The loop of R212: k registers from d on, which wraps from R15 to R0. -/
def loadRegs : Nat → RegCode → Address → State → Except Refusal State
  | 0, _, _, s => .ok s
  | k + 1, d, a, s => do
    let v ← s.readWord a
    loadRegs k (d + 1) (a.plus 2) (s.setReg d v)

/-- The loop of R213. -/
def storeRegs : Nat → RegCode → Address → State → Except Refusal State
  | 0, _, _, s => .ok s
  | k + 1, d, a, s => do
    let s ← s.writeWord a (s.reg d)
    storeRegs k (d + 1) (a.plus 2) s

/-- The load of R214. -/
def loadRel {n : Nat} (w : Width n) (d : RegCode) (disp : Word) (s : State) : Except Refusal State := do
  let v ← w.load s (s.eaRa disp)
  w.set s d v

/-- The store of R214. -/
def storeRel {n : Nat} (w : Width n) (disp : Word) (r : RegCode) (s : State) : Except Refusal State := do
  let v ← w.get s r
  w.store s (s.eaRa disp) v

/-- The registers that address register n is made of. -/
def State.addrRegs (s : State) (n : RegCode) : List RegCode := if s.segmented then [n, n + 1] else [n]

/-- The registers an R, IR, DA or X operand is or uses; `long` for a register pair (R216, R217; log 35). -/
def State.operandRegs (s : State) (long : Bool) : RegMem → List RegCode
  | .reg r => if long then [r, r + 1] else [r]
  | .mem (.ir r) => s.addrRegs r
  | .mem (.da _) => []
  | .mem (.x _ r) => [r]

/-- Two lists of registers have one in common. -/
def overlap (a b : List RegCode) : Bool := a.any fun x => b.contains x

/-! ### CLR, EX -/

/-- CLR (R201). -/
def execClr (dst : RegMem) (s : State) : Host.Outcome State Fault Refusal := finish (writeRegMem wordWidth s dst 0)
/-- CLRB (R201). -/
def execClrb (dst : RegMem) (s : State) : Host.Outcome State Fault Refusal := finish (writeRegMem byteWidth s dst 0)
/-- EX (R202). -/
def execEx (d : RegCode) (src : RegMem) (s : State) : Host.Outcome State Fault Refusal := finish (exchange wordWidth d src s)
/-- EXB (R202). -/
def execExb (d : RegCode) (src : RegMem) (s : State) : Host.Outcome State Fault Refusal := finish (exchange byteWidth d src s)

/-! ### LD -/

/-- LD Rd,src (R203). -/
def execLd (d : RegCode) (src : LdSrc 16) (s : State) : Host.Outcome State Fault Refusal := finish (loadReg wordWidth d src s)
/-- LDB Rbd,src (R203). -/
def execLdb (d : RegCode) (src : LdSrc 8) (s : State) : Host.Outcome State Fault Refusal := finish (loadReg byteWidth d src s)
/-- LDL RRd,src (R203). -/
def execLdl (d : RegCode) (src : LdSrc 32) (s : State) : Host.Outcome State Fault Refusal := finish (loadReg longWidth d src s)
/-- LDB Rbd,#imm8, compact (R204). -/
def execLdbk (d : RegCode) (v : BitVec 8) (s : State) : Host.Outcome State Fault Refusal := finish (byteWidth.set s d v)
/-- LD dst,Rs (R205). -/
def execLdStore (dst : LdMem) (r : RegCode) (s : State) : Host.Outcome State Fault Refusal := finish (storeReg wordWidth dst r s)
/-- LDB dst,Rbs (R205). -/
def execLdbStore (dst : LdMem) (r : RegCode) (s : State) : Host.Outcome State Fault Refusal := finish (storeReg byteWidth dst r s)
/-- LDL dst,RRs (R205). -/
def execLdlStore (dst : LdMem) (r : RegCode) (s : State) : Host.Outcome State Fault Refusal := finish (storeReg longWidth dst r s)
/-- LD dst,#imm16 (R206). -/
def execLdStoreImm (dst : MemOp) (v : BitVec 16) (s : State) : Host.Outcome State Fault Refusal := finish (storeImm wordWidth dst v s)
/-- LDB dst,#imm8 (R206). -/
def execLdbStoreImm (dst : MemOp) (v : BitVec 8) (s : State) : Host.Outcome State Fault Refusal := finish (storeImm byteWidth dst v s)
/-- LDA (R209). -/
def execLda (d : RegCode) (src : LdaSrc) (s : State) : Host.Outcome State Fault Refusal :=
  finish do
    let a ← s.eaLda src
    putAddr d a s
/-- LDAR (R210). -/
def execLdar (d : RegCode) (disp : Word) (s : State) : Host.Outcome State Fault Refusal := finish (putAddr d (s.eaRa disp) s)
/-- LDK (R211). -/
def execLdk (d : RegCode) (n : BitVec 4) (s : State) : Host.Outcome State Fault Refusal := finish (.ok (s.setReg d (n.setWidth 16)))
/-- LDM Rd,src,n (R212); the field holds n - 1. -/
def execLdmLoad (d : RegCode) (src : MemOp) (n : BitVec 4) (s : State) : Host.Outcome State Fault Refusal :=
  finish do
    let a ← s.ea src
    loadRegs (n.toNat + 1) d a s
/-- LDM dst,Rs,n (R213); the field holds n - 1. -/
def execLdmStore (dst : MemOp) (r : RegCode) (n : BitVec 4) (s : State) : Host.Outcome State Fault Refusal :=
  finish do
    let a ← s.ea dst
    storeRegs (n.toNat + 1) r a s
/-- LDR Rd,addr (R214). -/
def execLdr (d : RegCode) (disp : Word) (s : State) : Host.Outcome State Fault Refusal := finish (loadRel wordWidth d disp s)
/-- LDRB Rbd,addr (R214). -/
def execLdrb (d : RegCode) (disp : Word) (s : State) : Host.Outcome State Fault Refusal := finish (loadRel byteWidth d disp s)
/-- LDRL RRd,addr (R214). -/
def execLdrl (d : RegCode) (disp : Word) (s : State) : Host.Outcome State Fault Refusal := finish (loadRel longWidth d disp s)
/-- LDR addr,Rs (R214). -/
def execLdrStore (disp : Word) (r : RegCode) (s : State) : Host.Outcome State Fault Refusal := finish (storeRel wordWidth disp r s)
/-- LDRB addr,Rbs (R214). -/
def execLdrbStore (disp : Word) (r : RegCode) (s : State) : Host.Outcome State Fault Refusal := finish (storeRel byteWidth disp r s)
/-- LDRL addr,RRs (R214). -/
def execLdrlStore (disp : Word) (r : RegCode) (s : State) : Host.Outcome State Fault Refusal := finish (storeRel longWidth disp r s)

/-! ### POP, PUSH -/

/-- POP (R216). -/
def execPop (dst : RegMem) (sp : RegCode) (s : State) : Host.Outcome State Fault Refusal :=
  finish do
    if overlap (s.addrRegs sp) (s.operandRegs false dst) then .error .popOverlapsSp
    else
      let (v, s) ← s.popWord sp
      writeRegMem wordWidth s dst v
/-- POPL (R216). -/
def execPopl (dst : RegMem) (sp : RegCode) (s : State) : Host.Outcome State Fault Refusal :=
  finish do
    if overlap (s.addrRegs sp) (s.operandRegs true dst) then .error .popOverlapsSp
    else
      let (v, s) ← s.popLong sp
      writeRegMem longWidth s dst v
/-- PUSH with a source in R, IR, DA or X mode (R217). -/
def execPush (sp : RegCode) (src : RegMem) (s : State) : Host.Outcome State Fault Refusal :=
  finish do
    if overlap (s.addrRegs sp) (s.operandRegs false src) then .error .pushOverlapsSp
    else
      let v ← readRegMem wordWidth s src
      s.pushWord sp v
/-- PUSHL (R217). -/
def execPushl (sp : RegCode) (src : RegMem) (s : State) : Host.Outcome State Fault Refusal :=
  finish do
    if overlap (s.addrRegs sp) (s.operandRegs true src) then .error .pushOverlapsSp
    else
      let v ← readRegMem longWidth s src
      s.pushLong sp v
/-- PUSH with an immediate source (R217). -/
def execPushImm (sp : RegCode) (v : Word) (s : State) : Host.Outcome State Fault Refusal := finish (s.pushWord sp v)

end Sys2Proof.Machine
end

