-- ==== Sys2Proof/Machine/BlockString.lean ====
section
/-! DEFINITION. The block transfer and string instructions (spec/47_block_string.md). One iteration of a repeating form is one step
(R371). -/

namespace Sys2Proof.Machine

/-! ### Shared operations -/

/-- Three groups of registers have none in common (R372; log 36). -/
def disjoint3 (a b c : List RegCode) : Bool := !overlap a b && !overlap a c && !overlap b c

/-- R[r] <- R[r] -_16 1. -/
def State.countDown (s : State) (r : RegCode) : State := s.setReg r (s.reg r - 1)

/-- The PC goes back to the first word of a repeating form, which has two words, and what it stored so far stays noted for the
instruction after it (R371; spec/20_memory.md R103; log 12). -/
def State.goBack (s : State) : State := { s with pcOff := s.pcOff - 4, repeating := true }

/-- The end of an iteration of a repeating form (R371): unless the end condition holds the instruction is executed again. -/
def again (done : Bool) (s : State) : State := if done then s else s.goBack

/-- P/V <- the count is 0; Z is drawn (R373, R395; spec/48_input_output.md R420). -/
def blockFlags (r : RegCode) (s : State) : State :=
  s.drawn.setFcw { s.fcw with pv := s.reg r == 0, z := s.freeBit }

/-- LoadStep (R373); `delta` is dir*k. -/
def loadStep {n : Nat} (w : Width n) (delta : Word) (d p r : RegCode) (s : State) : Except Refusal State :=
  if disjoint3 (s.addrRegs p) (s.addrRegs d) [r] then do
    let a ← s.addrReg p
    let v ← w.load s a
    let b ← s.addrReg d
    let s ← w.store s b v
    .ok (blockFlags r (((s.autoStep p delta).autoStep d delta).countDown r))
  else .error .blockRegisterOverlap

/-- The flags of CompareStep (R373) and of TestStep (R395): Z <- found, P/V <- the count is 0, C and S drawn in this order. -/
def compareFlags (found : Bool) (r : RegCode) (s : State) : State :=
  s.drawn.drawn.setFcw { s.fcw with z := found, pv := s.reg r == 0, c := s.freeBit, s := s.drawn.freeBit }

/-- The condition of CompareStep (R373) on the destination operand a and the source operand b. -/
def compareMatch {n : Nat} (a b : BitVec n) (cc : CondCode) : Bool :=
  condHolds cc (subN a b false).c (subN a b false).z (subN a b false).s (subN a b false).v

/-- An iteration that compares a register with a string (R374, R376), and whether the condition was met. `regs` is the register
compared, as word registers. -/
def compareString {n : Nat} (w : Width n) (regs : List RegCode) (delta : Word) (d p r : RegCode) (cc : CondCode) (s : State) :
    Except Refusal (Bool × State) :=
  if disjoint3 (s.addrRegs p) regs [r] then do
    let a ← w.get s d
    let x ← s.addrReg p
    let b ← w.load s x
    let found := compareMatch a b cc
    .ok (found, (compareFlags found r (s.countDown r)).autoStep p delta)
  else .error .blockRegisterOverlap

/-- An iteration that compares two strings (R378, R380), and whether the condition was met. -/
def compareStrings {n : Nat} (w : Width n) (delta : Word) (d p r : RegCode) (cc : CondCode) (s : State) :
    Except Refusal (Bool × State) :=
  if disjoint3 (s.addrRegs p) (s.addrRegs d) [r] then do
    let x ← s.addrReg d
    let a ← w.load s x
    let y ← s.addrReg p
    let b ← w.load s y
    let found := compareMatch a b cc
    .ok (found, ((compareFlags found r (s.countDown r)).autoStep p delta).autoStep d delta)
  else .error .blockRegisterOverlap

/-- The single form of a compare. -/
def once (p : Except Refusal (Bool × State)) : Except Refusal State := do
  let (_, s) ← p
  .ok s

/-- The repeating form of a compare: the end condition is `match or R[r] = 0`. -/
def untilFound (r : RegCode) (p : Except Refusal (Bool × State)) : Except Refusal State := do
  let (found, s) ← p
  .ok (again (found || s.reg r == 0) s)

/-- The repeating form of a transfer: the end condition is `R[r] = 0`. -/
def untilZero (r : RegCode) (p : Except Refusal State) : Except Refusal State := do
  let s ← p
  .ok (again (s.reg r == 0) s)

/-- The registers of a translate instruction do not overlap, and without segmentation neither address register is R1 (R395). -/
def translateRegsOk (s : State) (d p r : RegCode) : Bool :=
  disjoint3 (s.addrRegs d) (s.addrRegs p) [r] && (s.segmented || (d != 1 && p != 1))

/-- The entry of the table at address register p for byte b (R395). -/
def State.tableEntry (s : State) (p : RegCode) (b : Byte) : Except Refusal Byte := do
  let t ← s.addrReg p
  .ok (s.readByte (t.plus (b.setWidth 16)))

/-- TranslateStep (R395). -/
def translateStep (delta : Word) (d p r : RegCode) (s : State) : Except Refusal State :=
  if translateRegsOk s d p r then do
    let a ← s.addrReg d
    let e ← s.tableEntry p (s.readByte a)
    .ok (blockFlags r (((s.writeByte a e).autoStep d delta).countDown r))
  else .error .blockRegisterOverlap

/-- TestStep (R395): RH1 receives the table entry, Z says that it is 0; none of the registers is R1 or contains it. C and S are drawn
(spec/93_implementation_defined.md U4; log 16). -/
def testStep (delta : Word) (d p r : RegCode) (s : State) : Except Refusal State :=
  if translateRegsOk s d p r && !overlap [1] (s.addrRegs d ++ s.addrRegs p ++ [r]) then do
    let a ← s.addrReg d
    let e ← s.tableEntry p (s.readByte a)
    .ok (compareFlags (e == 0) r (((s.setRb 1 e).autoStep d delta).countDown r))
  else .error .blockRegisterOverlap

/-- The repeating form of a translate and test: the end condition is `FCW.Z = 0 or R[r] = 0`. -/
def untilNonzero (r : RegCode) (p : Except Refusal State) : Except Refusal State := do
  let s ← p
  .ok (again (!s.fcw.z || s.reg r == 0) s)

/-! ### Compare (R374 to R377) -/

/-- CPD (R374). -/
def execCpd (d p r : RegCode) (cc : CondCode) (s : State) : Host.Outcome State Fault Refusal :=
  finish (once (compareString wordWidth [d] (-2) d p r cc s))
/-- CPDB (R374). -/
def execCpdb (d p r : RegCode) (cc : CondCode) (s : State) : Host.Outcome State Fault Refusal :=
  finish (once (compareString byteWidth [byteHome d] (-1) d p r cc s))
/-- CPDR (R375). -/
def execCpdr (d p r : RegCode) (cc : CondCode) (s : State) : Host.Outcome State Fault Refusal :=
  finish (untilFound r (compareString wordWidth [d] (-2) d p r cc s))
/-- CPDRB (R375). -/
def execCpdrb (d p r : RegCode) (cc : CondCode) (s : State) : Host.Outcome State Fault Refusal :=
  finish (untilFound r (compareString byteWidth [byteHome d] (-1) d p r cc s))
/-- CPI (R376). -/
def execCpi (d p r : RegCode) (cc : CondCode) (s : State) : Host.Outcome State Fault Refusal :=
  finish (once (compareString wordWidth [d] 2 d p r cc s))
/-- CPIB (R376). -/
def execCpib (d p r : RegCode) (cc : CondCode) (s : State) : Host.Outcome State Fault Refusal :=
  finish (once (compareString byteWidth [byteHome d] 1 d p r cc s))
/-- CPIR (R377). -/
def execCpir (d p r : RegCode) (cc : CondCode) (s : State) : Host.Outcome State Fault Refusal :=
  finish (untilFound r (compareString wordWidth [d] 2 d p r cc s))
/-- CPIRB (R377). -/
def execCpirb (d p r : RegCode) (cc : CondCode) (s : State) : Host.Outcome State Fault Refusal :=
  finish (untilFound r (compareString byteWidth [byteHome d] 1 d p r cc s))

/-! ### Compare strings (R378 to R381) -/

/-- CPSD (R378). -/
def execCpsd (d p r : RegCode) (cc : CondCode) (s : State) : Host.Outcome State Fault Refusal :=
  finish (once (compareStrings wordWidth (-2) d p r cc s))
/-- CPSDB (R378). -/
def execCpsdb (d p r : RegCode) (cc : CondCode) (s : State) : Host.Outcome State Fault Refusal :=
  finish (once (compareStrings byteWidth (-1) d p r cc s))
/-- CPSDR (R379). -/
def execCpsdr (d p r : RegCode) (cc : CondCode) (s : State) : Host.Outcome State Fault Refusal :=
  finish (untilFound r (compareStrings wordWidth (-2) d p r cc s))
/-- CPSDRB (R379). -/
def execCpsdrb (d p r : RegCode) (cc : CondCode) (s : State) : Host.Outcome State Fault Refusal :=
  finish (untilFound r (compareStrings byteWidth (-1) d p r cc s))
/-- CPSI (R380). -/
def execCpsi (d p r : RegCode) (cc : CondCode) (s : State) : Host.Outcome State Fault Refusal :=
  finish (once (compareStrings wordWidth 2 d p r cc s))
/-- CPSIB (R380). -/
def execCpsib (d p r : RegCode) (cc : CondCode) (s : State) : Host.Outcome State Fault Refusal :=
  finish (once (compareStrings byteWidth 1 d p r cc s))
/-- CPSIR (R381). -/
def execCpsir (d p r : RegCode) (cc : CondCode) (s : State) : Host.Outcome State Fault Refusal :=
  finish (untilFound r (compareStrings wordWidth 2 d p r cc s))
/-- CPSIRB (R381). -/
def execCpsirb (d p r : RegCode) (cc : CondCode) (s : State) : Host.Outcome State Fault Refusal :=
  finish (untilFound r (compareStrings byteWidth 1 d p r cc s))

/-! ### Block load (R382 to R385) -/

/-- LDD (R382). -/
def execLdd (d p r : RegCode) (s : State) : Host.Outcome State Fault Refusal :=
  finish (loadStep wordWidth (-2) d p r s)
/-- LDDB (R382). -/
def execLddb (d p r : RegCode) (s : State) : Host.Outcome State Fault Refusal :=
  finish (loadStep byteWidth (-1) d p r s)
/-- LDDR (R383). -/
def execLddr (d p r : RegCode) (s : State) : Host.Outcome State Fault Refusal :=
  finish (untilZero r (loadStep wordWidth (-2) d p r s))
/-- LDDRB (R383). -/
def execLddrb (d p r : RegCode) (s : State) : Host.Outcome State Fault Refusal :=
  finish (untilZero r (loadStep byteWidth (-1) d p r s))
/-- LDI (R384). -/
def execLdi (d p r : RegCode) (s : State) : Host.Outcome State Fault Refusal :=
  finish (loadStep wordWidth 2 d p r s)
/-- LDIB (R384). -/
def execLdib (d p r : RegCode) (s : State) : Host.Outcome State Fault Refusal :=
  finish (loadStep byteWidth 1 d p r s)
/-- LDIR (R385). -/
def execLdir (d p r : RegCode) (s : State) : Host.Outcome State Fault Refusal :=
  finish (untilZero r (loadStep wordWidth 2 d p r s))
/-- LDIRB (R385). -/
def execLdirb (d p r : RegCode) (s : State) : Host.Outcome State Fault Refusal :=
  finish (untilZero r (loadStep byteWidth 1 d p r s))

/-! ### Translate (R396 to R403) -/

/-- TRDB (R396). -/
def execTrdb (d p r : RegCode) (s : State) : Host.Outcome State Fault Refusal :=
  finish (translateStep (-1) d p r s)
/-- TRDRB (R397). -/
def execTrdrb (d p r : RegCode) (s : State) : Host.Outcome State Fault Refusal :=
  finish (untilZero r (translateStep (-1) d p r s))
/-- TRIB (R398). -/
def execTrib (d p r : RegCode) (s : State) : Host.Outcome State Fault Refusal :=
  finish (translateStep 1 d p r s)
/-- TRIRB (R399). -/
def execTrirb (d p r : RegCode) (s : State) : Host.Outcome State Fault Refusal :=
  finish (untilZero r (translateStep 1 d p r s))
/-- TRTDB (R400). -/
def execTrtdb (d p r : RegCode) (s : State) : Host.Outcome State Fault Refusal :=
  finish (testStep (-1) d p r s)
/-- TRTDRB (R401). -/
def execTrtdrb (d p r : RegCode) (s : State) : Host.Outcome State Fault Refusal :=
  finish (untilNonzero r (testStep (-1) d p r s))
/-- TRTIB (R402). -/
def execTrtib (d p r : RegCode) (s : State) : Host.Outcome State Fault Refusal :=
  finish (testStep 1 d p r s)
/-- TRTIRB (R403). -/
def execTrtirb (d p r : RegCode) (s : State) : Host.Outcome State Fault Refusal :=
  finish (untilNonzero r (testStep 1 d p r s))

end Sys2Proof.Machine
end

