-- ==== Sys2Proof/Machine/InputOutput.lean ====
section
/-! DEFINITION. The input/output instructions (spec/48_input_output.md), all of them system instructions (R410). -/

namespace Sys2Proof.Machine

/-! ### Shared operations -/

/-- IORead into a register (R413, R414, R417); `ev` is the event, `cut` takes the operand from the word the device answers. -/
def inputReg {n : Nat} (w : Width n) (ev : OutEvent) (cut : Word → BitVec n) (d : RegCode) (s : State) : Except Refusal State :=
  w.set (s.portRead ev) d (cut s.portValue)

/-- A byte port read takes the low byte of the answer (log 9). -/
def cutByte (v : Word) : Byte := loByte v
/-- A word port read takes the whole answer. -/
def cutWord (v : Word) : Word := v

/-- IOWrite of a register (R415, R416, R418); `ev` is the output event. -/
def outputReg {n : Nat} (w : Width n) (ev : BitVec n → OutEvent) (r : RegCode) (s : State) : Except Refusal State := do
  let v ← w.get s r
  .ok (s.emit (ev v))

/-- InStep (R420): d addresses memory, p holds the port. -/
def inputStep {n : Nat} (w : Width n) (ev : Word → OutEvent) (cut : Word → BitVec n) (delta : Word) (d p r : RegCode) (s : State) :
    Except Refusal State :=
  if disjoint3 (s.addrRegs d) [p] [r] then do
    let a ← s.addrReg d
    let s' ← w.store (s.portRead (ev (s.reg p))) a (cut s.portValue)
    .ok (blockFlags r ((s'.autoStep d delta).countDown r))
  else .error .blockRegisterOverlap

/-- OutStep (R420): d holds the port, p addresses memory. -/
def outputStep {n : Nat} (w : Width n) (ev : Word → BitVec n → OutEvent) (delta : Word) (d p r : RegCode) (s : State) :
    Except Refusal State :=
  if disjoint3 (s.addrRegs p) [d] [r] then do
    let a ← s.addrReg p
    let v ← w.load s a
    .ok (blockFlags r (((s.emit (ev (s.reg d) v)).autoStep p delta).countDown r))
  else .error .blockRegisterOverlap

/-! ### Single transfers -/

/-- IN Rd,@Rs (R413). -/
def execInReg (d p : RegCode) (s : State) : Host.Outcome State Fault Refusal :=
  finish (requireSystem (.inReg d p) s fun s => inputReg wordWidth (.askWord .io (s.reg p)) cutWord d s)
/-- INB Rd,@Rs (R413). -/
def execInbReg (d p : RegCode) (s : State) : Host.Outcome State Fault Refusal :=
  finish (requireSystem (.inbReg d p) s fun s => inputReg byteWidth (.askByte .io (s.reg p)) cutByte d s)
/-- IN Rd,port (R414). -/
def execInPort (d : RegCode) (port : Word) (s : State) : Host.Outcome State Fault Refusal :=
  finish (requireSystem (.inPort d port) s fun s => inputReg wordWidth (.askWord .io port) cutWord d s)
/-- INB Rd,port (R414). -/
def execInbPort (d : RegCode) (port : Word) (s : State) : Host.Outcome State Fault Refusal :=
  finish (requireSystem (.inbPort d port) s fun s => inputReg byteWidth (.askByte .io port) cutByte d s)
/-- OUT @Rd,Rs (R415). -/
def execOutReg (d r : RegCode) (s : State) : Host.Outcome State Fault Refusal :=
  finish (requireSystem (.outReg d r) s fun s => outputReg wordWidth (.portWord .io (s.reg d)) r s)
/-- OUTB @Rd,Rs (R415). -/
def execOutbReg (d r : RegCode) (s : State) : Host.Outcome State Fault Refusal :=
  finish (requireSystem (.outbReg d r) s fun s => outputReg byteWidth (.portByte .io (s.reg d)) r s)
/-- OUT port,Rs (R416). -/
def execOutPort (port : Word) (r : RegCode) (s : State) : Host.Outcome State Fault Refusal :=
  finish (requireSystem (.outPort port r) s fun s => outputReg wordWidth (.portWord .io port) r s)
/-- OUTB port,Rs (R416). -/
def execOutbPort (port : Word) (r : RegCode) (s : State) : Host.Outcome State Fault Refusal :=
  finish (requireSystem (.outbPort port r) s fun s => outputReg byteWidth (.portByte .io port) r s)
/-- SIN (R417). -/
def execSin (d : RegCode) (port : Word) (s : State) : Host.Outcome State Fault Refusal :=
  finish (requireSystem (.sin d port) s fun s => inputReg wordWidth (.askWord .sio port) cutWord d s)
/-- SINB (R417). -/
def execSinb (d : RegCode) (port : Word) (s : State) : Host.Outcome State Fault Refusal :=
  finish (requireSystem (.sinb d port) s fun s => inputReg byteWidth (.askByte .sio port) cutByte d s)
/-- SOUT (R418). -/
def execSout (port : Word) (r : RegCode) (s : State) : Host.Outcome State Fault Refusal :=
  finish (requireSystem (.sout port r) s fun s => outputReg wordWidth (.portWord .sio port) r s)
/-- SOUTB (R418). -/
def execSoutb (port : Word) (r : RegCode) (s : State) : Host.Outcome State Fault Refusal :=
  finish (requireSystem (.soutb port r) s fun s => outputReg byteWidth (.portByte .sio port) r s)

/-! ### Block input -/

/-- IND (R421). -/
def execInd (d p r : RegCode) (s : State) : Host.Outcome State Fault Refusal :=
  finish (requireSystem (.ind d p r) s fun s => inputStep wordWidth (.askWord .io) cutWord (-2) d p r s)
/-- INDB (R421). -/
def execIndb (d p r : RegCode) (s : State) : Host.Outcome State Fault Refusal :=
  finish (requireSystem (.indb d p r) s fun s => inputStep byteWidth (.askByte .io) cutByte (-1) d p r s)
/-- INDR (R421). -/
def execIndr (d p r : RegCode) (s : State) : Host.Outcome State Fault Refusal :=
  finish (requireSystem (.indr d p r) s fun s => untilZero r (inputStep wordWidth (.askWord .io) cutWord (-2) d p r s))
/-- INDRB (R421). -/
def execIndrb (d p r : RegCode) (s : State) : Host.Outcome State Fault Refusal :=
  finish (requireSystem (.indrb d p r) s fun s => untilZero r (inputStep byteWidth (.askByte .io) cutByte (-1) d p r s))
/-- INI (R422). -/
def execIni (d p r : RegCode) (s : State) : Host.Outcome State Fault Refusal :=
  finish (requireSystem (.ini d p r) s fun s => inputStep wordWidth (.askWord .io) cutWord 2 d p r s)
/-- INIB (R422). -/
def execInib (d p r : RegCode) (s : State) : Host.Outcome State Fault Refusal :=
  finish (requireSystem (.inib d p r) s fun s => inputStep byteWidth (.askByte .io) cutByte 1 d p r s)
/-- INIR (R422). -/
def execInir (d p r : RegCode) (s : State) : Host.Outcome State Fault Refusal :=
  finish (requireSystem (.inir d p r) s fun s => untilZero r (inputStep wordWidth (.askWord .io) cutWord 2 d p r s))
/-- INIRB (R422). -/
def execInirb (d p r : RegCode) (s : State) : Host.Outcome State Fault Refusal :=
  finish (requireSystem (.inirb d p r) s fun s => untilZero r (inputStep byteWidth (.askByte .io) cutByte 1 d p r s))
/-- SIND (R425). -/
def execSind (d p r : RegCode) (s : State) : Host.Outcome State Fault Refusal :=
  finish (requireSystem (.sind d p r) s fun s => inputStep wordWidth (.askWord .sio) cutWord (-2) d p r s)
/-- SINDB (R425). -/
def execSindb (d p r : RegCode) (s : State) : Host.Outcome State Fault Refusal :=
  finish (requireSystem (.sindb d p r) s fun s => inputStep byteWidth (.askByte .sio) cutByte (-1) d p r s)
/-- SINDR (R425). -/
def execSindr (d p r : RegCode) (s : State) : Host.Outcome State Fault Refusal :=
  finish (requireSystem (.sindr d p r) s fun s => untilZero r (inputStep wordWidth (.askWord .sio) cutWord (-2) d p r s))
/-- SINDRB (R425). -/
def execSindrb (d p r : RegCode) (s : State) : Host.Outcome State Fault Refusal :=
  finish (requireSystem (.sindrb d p r) s fun s => untilZero r (inputStep byteWidth (.askByte .sio) cutByte (-1) d p r s))
/-- SINI (R426). -/
def execSini (d p r : RegCode) (s : State) : Host.Outcome State Fault Refusal :=
  finish (requireSystem (.sini d p r) s fun s => inputStep wordWidth (.askWord .sio) cutWord 2 d p r s)
/-- SINIB (R426). -/
def execSinib (d p r : RegCode) (s : State) : Host.Outcome State Fault Refusal :=
  finish (requireSystem (.sinib d p r) s fun s => inputStep byteWidth (.askByte .sio) cutByte 1 d p r s)
/-- SINIR (R426). -/
def execSinir (d p r : RegCode) (s : State) : Host.Outcome State Fault Refusal :=
  finish (requireSystem (.sinir d p r) s fun s => untilZero r (inputStep wordWidth (.askWord .sio) cutWord 2 d p r s))
/-- SINIRB (R426). -/
def execSinirb (d p r : RegCode) (s : State) : Host.Outcome State Fault Refusal :=
  finish (requireSystem (.sinirb d p r) s fun s => untilZero r (inputStep byteWidth (.askByte .sio) cutByte 1 d p r s))

/-! ### Block output -/

/-- OUTD (R423). -/
def execOutd (d p r : RegCode) (s : State) : Host.Outcome State Fault Refusal :=
  finish (requireSystem (.outd d p r) s fun s => outputStep wordWidth (.portWord .io) (-2) d p r s)
/-- OUTDB (R423). -/
def execOutdb (d p r : RegCode) (s : State) : Host.Outcome State Fault Refusal :=
  finish (requireSystem (.outdb d p r) s fun s => outputStep byteWidth (.portByte .io) (-1) d p r s)
/-- OTDR (R423). -/
def execOtdr (d p r : RegCode) (s : State) : Host.Outcome State Fault Refusal :=
  finish (requireSystem (.otdr d p r) s fun s => untilZero r (outputStep wordWidth (.portWord .io) (-2) d p r s))
/-- OTDRB (R423). -/
def execOtdrb (d p r : RegCode) (s : State) : Host.Outcome State Fault Refusal :=
  finish (requireSystem (.otdrb d p r) s fun s => untilZero r (outputStep byteWidth (.portByte .io) (-1) d p r s))
/-- OUTI (R424). -/
def execOuti (d p r : RegCode) (s : State) : Host.Outcome State Fault Refusal :=
  finish (requireSystem (.outi d p r) s fun s => outputStep wordWidth (.portWord .io) 2 d p r s)
/-- OUTIB (R424). -/
def execOutib (d p r : RegCode) (s : State) : Host.Outcome State Fault Refusal :=
  finish (requireSystem (.outib d p r) s fun s => outputStep byteWidth (.portByte .io) 1 d p r s)
/-- OTIR (R424). -/
def execOtir (d p r : RegCode) (s : State) : Host.Outcome State Fault Refusal :=
  finish (requireSystem (.otir d p r) s fun s => untilZero r (outputStep wordWidth (.portWord .io) 2 d p r s))
/-- OTIRB (R424). -/
def execOtirb (d p r : RegCode) (s : State) : Host.Outcome State Fault Refusal :=
  finish (requireSystem (.otirb d p r) s fun s => untilZero r (outputStep byteWidth (.portByte .io) 1 d p r s))
/-- SOUTD (R427). -/
def execSoutd (d p r : RegCode) (s : State) : Host.Outcome State Fault Refusal :=
  finish (requireSystem (.soutd d p r) s fun s => outputStep wordWidth (.portWord .sio) (-2) d p r s)
/-- SOUTDB (R427). -/
def execSoutdb (d p r : RegCode) (s : State) : Host.Outcome State Fault Refusal :=
  finish (requireSystem (.soutdb d p r) s fun s => outputStep byteWidth (.portByte .sio) (-1) d p r s)
/-- SOTDR (R427). -/
def execSotdr (d p r : RegCode) (s : State) : Host.Outcome State Fault Refusal :=
  finish (requireSystem (.sotdr d p r) s fun s => untilZero r (outputStep wordWidth (.portWord .sio) (-2) d p r s))
/-- SOTDRB (R427). -/
def execSotdrb (d p r : RegCode) (s : State) : Host.Outcome State Fault Refusal :=
  finish (requireSystem (.sotdrb d p r) s fun s => untilZero r (outputStep byteWidth (.portByte .sio) (-1) d p r s))
/-- SOUTI (R428). -/
def execSouti (d p r : RegCode) (s : State) : Host.Outcome State Fault Refusal :=
  finish (requireSystem (.souti d p r) s fun s => outputStep wordWidth (.portWord .sio) 2 d p r s)
/-- SOUTIB (R428). -/
def execSoutib (d p r : RegCode) (s : State) : Host.Outcome State Fault Refusal :=
  finish (requireSystem (.soutib d p r) s fun s => outputStep byteWidth (.portByte .sio) 1 d p r s)
/-- SOTIR (R428). -/
def execSotir (d p r : RegCode) (s : State) : Host.Outcome State Fault Refusal :=
  finish (requireSystem (.sotir d p r) s fun s => untilZero r (outputStep wordWidth (.portWord .sio) 2 d p r s))
/-- SOTIRB (R428). -/
def execSotirb (d p r : RegCode) (s : State) : Host.Outcome State Fault Refusal :=
  finish (requireSystem (.sotirb d p r) s fun s => untilZero r (outputStep byteWidth (.portByte .sio) 1 d p r s))

end Sys2Proof.Machine
end

