-- ==== Sys2Proof/Machine/Logical.lean ====
section
/-! DEFINITION. The logical instructions (spec/43_logical.md). -/

namespace Sys2Proof.Machine

/-! ### Shared operations -/

/-- Register and source combined bit by bit (R281, R283, R286). -/
def logicReg {n : Nat} (w : Width n) (op : BitVec n → BitVec n → BitVec n) (d : RegCode) (src : Src n) (s : State) :
    Except Refusal State := do
  let a ← w.get s d
  let b ← readSrc w s src
  let s' ← w.set s d (op a b)
  .ok (s'.setFcw (s.fcw.logic (op a b)))

/-- The operation of R282. -/
def complement {n : Nat} (w : Width n) (dst : RegMem) (s : State) : Except Refusal State := do
  let v ← readRegMem w s dst
  let s' ← writeRegMem w s dst (~~~v)
  .ok (s'.setFcw (s.fcw.logic (~~~v)))

/-- The operation of R284: bit 0 is set when the condition holds. -/
def testCond {n : Nat} (w : Width n) (cc : CondCode) (d : RegCode) (s : State) : Except Refusal State := do
  let v ← w.get s d
  if s.fcw.cond cc then w.set s d (v ||| BitVec.twoPow n 0) else .ok s

/-- The operation of R285. -/
def testOp {n : Nat} (w : Width n) (dst : RegMem) (s : State) : Except Refusal State := do
  let v ← readRegMem w s dst
  .ok (s.setFcw (s.fcw.logic v))

/-! ### The instructions -/

/-- AND (R281). -/
def execAnd (d : RegCode) (src : Src 16) (s : State) : Host.Outcome State Fault Refusal :=
  finish (logicReg wordWidth (fun a b => a &&& b) d src s)
/-- ANDB (R281). -/
def execAndb (d : RegCode) (src : Src 8) (s : State) : Host.Outcome State Fault Refusal :=
  finish (logicReg byteWidth (fun a b => a &&& b) d src s)
/-- COM (R282). -/
def execCom (dst : RegMem) (s : State) : Host.Outcome State Fault Refusal := finish (complement wordWidth dst s)
/-- COMB (R282). -/
def execComb (dst : RegMem) (s : State) : Host.Outcome State Fault Refusal := finish (complement byteWidth dst s)
/-- OR (R283). -/
def execOr (d : RegCode) (src : Src 16) (s : State) : Host.Outcome State Fault Refusal :=
  finish (logicReg wordWidth (fun a b => a ||| b) d src s)
/-- ORB (R283). -/
def execOrb (d : RegCode) (src : Src 8) (s : State) : Host.Outcome State Fault Refusal :=
  finish (logicReg byteWidth (fun a b => a ||| b) d src s)
/-- TCC (R284). -/
def execTcc (cc : CondCode) (d : RegCode) (s : State) : Host.Outcome State Fault Refusal := finish (testCond wordWidth cc d s)
/-- TCCB (R284). -/
def execTccb (cc : CondCode) (d : RegCode) (s : State) : Host.Outcome State Fault Refusal := finish (testCond byteWidth cc d s)
/-- TEST (R285). -/
def execTest (dst : RegMem) (s : State) : Host.Outcome State Fault Refusal := finish (testOp wordWidth dst s)
/-- TESTB (R285). -/
def execTestb (dst : RegMem) (s : State) : Host.Outcome State Fault Refusal := finish (testOp byteWidth dst s)
/-- TESTL (R285). -/
def execTestl (dst : RegMem) (s : State) : Host.Outcome State Fault Refusal := finish (testOp longWidth dst s)
/-- XOR (R286). -/
def execXor (d : RegCode) (src : Src 16) (s : State) : Host.Outcome State Fault Refusal :=
  finish (logicReg wordWidth (fun a b => a ^^^ b) d src s)
/-- XORB (R286). -/
def execXorb (d : RegCode) (src : Src 8) (s : State) : Host.Outcome State Fault Refusal :=
  finish (logicReg byteWidth (fun a b => a ^^^ b) d src s)

end Sys2Proof.Machine
end

