-- ==== Sys2Proof/Machine/ProgramControl.lean ====
section
/-! DEFINITION. The program control instructions (spec/44_program_control.md). -/

namespace Sys2Proof.Machine

/-- The operation of R304; a displacement counts words. -/
def decrementJump {n : Nat} (w : Width n) (r : RegCode) (disp : BitVec 7) (s : State) : Except Refusal State := do
  let v ← w.get s r
  let s ← w.set s r (v - 1)
  .ok (if v - 1 = 0 then s else s.movePc (s.pcOff - 2 * disp.setWidth 16))

/-- CALL (R302). -/
def execCall (dst : MemOp) (s : State) : Host.Outcome State Fault Refusal :=
  finish do
    let t ← s.ea dst
    let s ← s.pushPc
    s.jumpTo t
/-- CALR (R303): the displacement is subtracted. -/
def execCalr (disp : BitVec 12) (s : State) : Host.Outcome State Fault Refusal :=
  finish do
    let s ← s.pushPc
    .ok (s.movePc (s.pcOff - 2 * disp.signExtend 16))
/-- DJNZ (R304). -/
def execDjnz (r : RegCode) (disp : BitVec 7) (s : State) : Host.Outcome State Fault Refusal := finish (decrementJump wordWidth r disp s)
/-- DBJNZ (R304). -/
def execDbjnz (r : RegCode) (disp : BitVec 7) (s : State) : Host.Outcome State Fault Refusal := finish (decrementJump byteWidth r disp s)
/-- IRET (R305). -/
def execIret (s : State) : Host.Outcome State Fault Refusal := finish (requireSystem .iret s State.returnFromTrap)
/-- JP (R306). -/
def execJp (cc : CondCode) (dst : MemOp) (s : State) : Host.Outcome State Fault Refusal :=
  finish do
    let t ← s.ea dst
    if s.fcw.cond cc then s.jumpTo t else .ok s
/-- JR (R307). -/
def execJr (cc : CondCode) (disp : BitVec 8) (s : State) : Host.Outcome State Fault Refusal :=
  finish (.ok (if s.fcw.cond cc then s.movePc (s.pcOff + 2 * disp.signExtend 16) else s))
/-- RET (R308). -/
def execRet (cc : CondCode) (s : State) : Host.Outcome State Fault Refusal :=
  finish (if s.fcw.cond cc then s.popPc else .ok s)
/-- SC (R309; spec/60_exceptions.md R506): the identifier is the instruction word. -/
def execSc (src : BitVec 8) (s : State) : Host.Outcome State Fault Refusal :=
  finish (s.trapEntry .systemCall (0x7F#8 ++ src) s.pcOff)

end Sys2Proof.Machine
end

