-- ==== Sys2Proof/Machine/RotateShift.lean ====
section
/-! DEFINITION. The rotate and shift instructions (spec/46_rotate_shift.md). -/

namespace Sys2Proof.Machine

/-! ### Shared operations -/

/-- A rotate by 1 or 2 places (R342 to R345); P/V after 2 places is drawn. -/
def rotateReg {n : Nat} (w : Width n) (one : BitVec n → Bool → BitVec n × Bool) (d : RegCode) (two : Bool) (s : State) :
    Except Refusal State := do
  let v ← w.get s d
  let (r, c) := rotate one two v s.fcw.c
  let s' ← w.set (if two then s.drawn else s) d r
  .ok (s'.setFcw { s.fcw with c := c, z := r == 0, s := r.msb, pv := if two then s.freeBit else r.msb != v.msb })

/-- A shift by a signed count (R350 to R357): C is drawn for a count of 0, then P/V is drawn for the logical kind. -/
def shiftReg {n : Nat} (w : Width n) (kind : ShiftKind) (d : RegCode) (c : Int) (s : State) : Except Refusal State := do
  if n < c.natAbs then .error .badShiftCount
  else
    let v ← w.get s d
    let (r, out) := shiftBy kind v c
    let s1 := if out.isNone then s.drawn else s
    let s2 := if kind = .logical then s1.drawn else s1
    let s' ← w.set s2 d r
    .ok (s'.setFcw { s.fcw with
      c := out.getD s.freeBit
      z := r == 0
      s := r.msb
      pv := if kind = .logical then s1.freeBit else shiftOverflow v c })

/-- The count of a dynamic shift of bytes: the low byte of Rs, signed (R350). -/
def State.byteCount (s : State) (r : RegCode) : Int := (loByte (s.reg r)).toInt

/-- The count of a dynamic shift of words and long words: Rs, signed (R350). -/
def State.wordCount (s : State) (r : RegCode) : Int := (s.reg r).toInt

/-- The link and the source register of RLDB and RRDB among the fields bits 7..4 and bits 3..0 (R346; log 14). -/
def digitFields (o : RldbFieldOrder) (hi lo : RegCode) : RegCode × RegCode :=
  match o with
  | .srcThenLink => (lo, hi)
  | .linkThenSrc => (hi, lo)

/-- A digit rotate: `f` gives the new link and the new source byte from the old ones; S is drawn (R346, R347). -/
def rotateDigit (f : Byte → Byte → Byte × Byte) (hi lo : RegCode) (s : State) : Except Refusal State :=
  let (l, r) := digitFields s.cfg.rldbFieldOrder hi lo
  if l = r then .error .rldbSameRegister
  else
    let (link, src) := f (s.rb l) (s.rb r)
    .ok (((s.drawn.setRb r src).setRb l link).setFcw { s.fcw with z := link == 0, s := s.freeBit })

/-- R346: new link and new source. -/
def digitLeft (link src : Byte) : Byte × Byte :=
  (link.extractLsb' 4 4 ++ src.extractLsb' 4 4, src.extractLsb' 0 4 ++ link.extractLsb' 0 4)

/-- R347: new link and new source. -/
def digitRight (link src : Byte) : Byte × Byte :=
  (link.extractLsb' 4 4 ++ src.extractLsb' 0 4, link.extractLsb' 0 4 ++ src.extractLsb' 4 4)

/-! ### Rotates -/

/-- RL (R342). -/
def execRl (d : RegCode) (two : Bool) (s : State) : Host.Outcome State Fault Refusal := finish (rotateReg wordWidth rotLeft d two s)
/-- RLB (R342). -/
def execRlb (d : RegCode) (two : Bool) (s : State) : Host.Outcome State Fault Refusal := finish (rotateReg byteWidth rotLeft d two s)
/-- RLC (R343). -/
def execRlc (d : RegCode) (two : Bool) (s : State) : Host.Outcome State Fault Refusal := finish (rotateReg wordWidth rotLeftCarry d two s)
/-- RLCB (R343). -/
def execRlcb (d : RegCode) (two : Bool) (s : State) : Host.Outcome State Fault Refusal := finish (rotateReg byteWidth rotLeftCarry d two s)
/-- RR (R344). -/
def execRr (d : RegCode) (two : Bool) (s : State) : Host.Outcome State Fault Refusal := finish (rotateReg wordWidth rotRight d two s)
/-- RRB (R344). -/
def execRrb (d : RegCode) (two : Bool) (s : State) : Host.Outcome State Fault Refusal := finish (rotateReg byteWidth rotRight d two s)
/-- RRC (R345). -/
def execRrc (d : RegCode) (two : Bool) (s : State) : Host.Outcome State Fault Refusal := finish (rotateReg wordWidth rotRightCarry d two s)
/-- RRCB (R345). -/
def execRrcb (d : RegCode) (two : Bool) (s : State) : Host.Outcome State Fault Refusal := finish (rotateReg byteWidth rotRightCarry d two s)
/-- RLDB (R346). -/
def execRldb (hi lo : RegCode) (s : State) : Host.Outcome State Fault Refusal := finish (rotateDigit digitLeft hi lo s)
/-- RRDB (R347). -/
def execRrdb (hi lo : RegCode) (s : State) : Host.Outcome State Fault Refusal := finish (rotateDigit digitRight hi lo s)

/-! ### Static shifts -/

/-- SLA (R352). -/
def execSla (d : RegCode) (n : Nat) (s : State) : Host.Outcome State Fault Refusal := finish (shiftReg wordWidth .arithmetic d n s)
/-- SLAB (R352). -/
def execSlab (d : RegCode) (n : Nat) (s : State) : Host.Outcome State Fault Refusal := finish (shiftReg byteWidth .arithmetic d n s)
/-- SLAL (R352). -/
def execSlal (d : RegCode) (n : Nat) (s : State) : Host.Outcome State Fault Refusal := finish (shiftReg longWidth .arithmetic d n s)
/-- SLL (R354). -/
def execSll (d : RegCode) (n : Nat) (s : State) : Host.Outcome State Fault Refusal := finish (shiftReg wordWidth .logical d n s)
/-- SLLB (R354). -/
def execSllb (d : RegCode) (n : Nat) (s : State) : Host.Outcome State Fault Refusal := finish (shiftReg byteWidth .logical d n s)
/-- SLLL (R354). -/
def execSlll (d : RegCode) (n : Nat) (s : State) : Host.Outcome State Fault Refusal := finish (shiftReg longWidth .logical d n s)
/-- SRA (R353). -/
def execSra (d : RegCode) (n : Nat) (s : State) : Host.Outcome State Fault Refusal := finish (shiftReg wordWidth .arithmetic d (-n) s)
/-- SRAB (R353). -/
def execSrab (d : RegCode) (n : Nat) (s : State) : Host.Outcome State Fault Refusal := finish (shiftReg byteWidth .arithmetic d (-n) s)
/-- SRAL (R353). -/
def execSral (d : RegCode) (n : Nat) (s : State) : Host.Outcome State Fault Refusal := finish (shiftReg longWidth .arithmetic d (-n) s)
/-- SRL (R355). -/
def execSrl (d : RegCode) (n : Nat) (s : State) : Host.Outcome State Fault Refusal := finish (shiftReg wordWidth .logical d (-n) s)
/-- SRLB (R355). -/
def execSrlb (d : RegCode) (n : Nat) (s : State) : Host.Outcome State Fault Refusal := finish (shiftReg byteWidth .logical d (-n) s)
/-- SRLL (R355). -/
def execSrll (d : RegCode) (n : Nat) (s : State) : Host.Outcome State Fault Refusal := finish (shiftReg longWidth .logical d (-n) s)

/-! ### Dynamic shifts -/

/-- SDA (R356). -/
def execSda (d r : RegCode) (s : State) : Host.Outcome State Fault Refusal := finish (shiftReg wordWidth .arithmetic d (s.wordCount r) s)
/-- SDAB (R356). -/
def execSdab (d r : RegCode) (s : State) : Host.Outcome State Fault Refusal := finish (shiftReg byteWidth .arithmetic d (s.byteCount r) s)
/-- SDAL (R356). -/
def execSdal (d r : RegCode) (s : State) : Host.Outcome State Fault Refusal := finish (shiftReg longWidth .arithmetic d (s.wordCount r) s)
/-- SDL (R357). -/
def execSdl (d r : RegCode) (s : State) : Host.Outcome State Fault Refusal := finish (shiftReg wordWidth .logical d (s.wordCount r) s)
/-- SDLB (R357). -/
def execSdlb (d r : RegCode) (s : State) : Host.Outcome State Fault Refusal := finish (shiftReg byteWidth .logical d (s.byteCount r) s)
/-- SDLL (R357). -/
def execSdll (d r : RegCode) (s : State) : Host.Outcome State Fault Refusal := finish (shiftReg longWidth .logical d (s.wordCount r) s)

end Sys2Proof.Machine
end

