-- ==== Sys2Proof/Machine/Dispatch.lean ====
section
/-! DEFINITION. Every instruction's meaning, one arm each. -/

namespace Sys2Proof.Machine

def exec (i : Instr) (s : State) : Host.Outcome State Fault Refusal :=
  match i with
  | .clr dst => Sys2Proof.Machine.execClr dst s
  | .clrb dst => Sys2Proof.Machine.execClrb dst s
  | .ex d src => Sys2Proof.Machine.execEx d src s
  | .exb d src => Sys2Proof.Machine.execExb d src s
  | .ld d src => Sys2Proof.Machine.execLd d src s
  | .ldb d src => Sys2Proof.Machine.execLdb d src s
  | .ldl d src => Sys2Proof.Machine.execLdl d src s
  | .ldbk d v => Sys2Proof.Machine.execLdbk d v s
  | .ldStore dst r2 => Sys2Proof.Machine.execLdStore dst r2 s
  | .ldbStore dst r2 => Sys2Proof.Machine.execLdbStore dst r2 s
  | .ldlStore dst r2 => Sys2Proof.Machine.execLdlStore dst r2 s
  | .ldStoreImm dst v => Sys2Proof.Machine.execLdStoreImm dst v s
  | .ldbStoreImm dst v => Sys2Proof.Machine.execLdbStoreImm dst v s
  | .lda d src => Sys2Proof.Machine.execLda d src s
  | .ldar d disp => Sys2Proof.Machine.execLdar d disp s
  | .ldk d n => Sys2Proof.Machine.execLdk d n s
  | .ldmLoad d src n => Sys2Proof.Machine.execLdmLoad d src n s
  | .ldmStore dst r2 n => Sys2Proof.Machine.execLdmStore dst r2 n s
  | .ldr d disp => Sys2Proof.Machine.execLdr d disp s
  | .ldrb d disp => Sys2Proof.Machine.execLdrb d disp s
  | .ldrl d disp => Sys2Proof.Machine.execLdrl d disp s
  | .ldrStore disp r2 => Sys2Proof.Machine.execLdrStore disp r2 s
  | .ldrbStore disp r2 => Sys2Proof.Machine.execLdrbStore disp r2 s
  | .ldrlStore disp r2 => Sys2Proof.Machine.execLdrlStore disp r2 s
  | .pop dst sp => Sys2Proof.Machine.execPop dst sp s
  | .popl dst sp => Sys2Proof.Machine.execPopl dst sp s
  | .push sp src => Sys2Proof.Machine.execPush sp src s
  | .pushl sp src => Sys2Proof.Machine.execPushl sp src s
  | .pushImm sp v => Sys2Proof.Machine.execPushImm sp v s
  | .adc d r2 => Sys2Proof.Machine.execAdc d r2 s
  | .adcb d r2 => Sys2Proof.Machine.execAdcb d r2 s
  | .add d src => Sys2Proof.Machine.execAdd d src s
  | .addb d src => Sys2Proof.Machine.execAddb d src s
  | .addl d src => Sys2Proof.Machine.execAddl d src s
  | .cp d src => Sys2Proof.Machine.execCp d src s
  | .cpb d src => Sys2Proof.Machine.execCpb d src s
  | .cpl d src => Sys2Proof.Machine.execCpl d src s
  | .cpMemImm dst v => Sys2Proof.Machine.execCpMemImm dst v s
  | .cpbMemImm dst v => Sys2Proof.Machine.execCpbMemImm dst v s
  | .dab d => Sys2Proof.Machine.execDab d s
  | .dec dst n => Sys2Proof.Machine.execDec dst n s
  | .decb dst n => Sys2Proof.Machine.execDecb dst n s
  | .div d src => Sys2Proof.Machine.execDiv d src s
  | .divl d src => Sys2Proof.Machine.execDivl d src s
  | .exts d => Sys2Proof.Machine.execExts d s
  | .extsb d => Sys2Proof.Machine.execExtsb d s
  | .extsl d => Sys2Proof.Machine.execExtsl d s
  | .inc dst n => Sys2Proof.Machine.execInc dst n s
  | .incb dst n => Sys2Proof.Machine.execIncb dst n s
  | .mult d src => Sys2Proof.Machine.execMult d src s
  | .multl d src => Sys2Proof.Machine.execMultl d src s
  | .neg dst => Sys2Proof.Machine.execNeg dst s
  | .negb dst => Sys2Proof.Machine.execNegb dst s
  | .sbc d r2 => Sys2Proof.Machine.execSbc d r2 s
  | .sbcb d r2 => Sys2Proof.Machine.execSbcb d r2 s
  | .sub d src => Sys2Proof.Machine.execSub d src s
  | .subb d src => Sys2Proof.Machine.execSubb d src s
  | .subl d src => Sys2Proof.Machine.execSubl d src s
  | .and d src => Sys2Proof.Machine.execAnd d src s
  | .andb d src => Sys2Proof.Machine.execAndb d src s
  | .com dst => Sys2Proof.Machine.execCom dst s
  | .comb dst => Sys2Proof.Machine.execComb dst s
  | .or d src => Sys2Proof.Machine.execOr d src s
  | .orb d src => Sys2Proof.Machine.execOrb d src s
  | .tcc cc d => Sys2Proof.Machine.execTcc cc d s
  | .tccb cc d => Sys2Proof.Machine.execTccb cc d s
  | .test dst => Sys2Proof.Machine.execTest dst s
  | .testb dst => Sys2Proof.Machine.execTestb dst s
  | .testl dst => Sys2Proof.Machine.execTestl dst s
  | .xor d src => Sys2Proof.Machine.execXor d src s
  | .xorb d src => Sys2Proof.Machine.execXorb d src s
  | .call dst => Sys2Proof.Machine.execCall dst s
  | .calr disp => Sys2Proof.Machine.execCalr disp s
  | .djnz r disp => Sys2Proof.Machine.execDjnz r disp s
  | .dbjnz r disp => Sys2Proof.Machine.execDbjnz r disp s
  | .iret => Sys2Proof.Machine.execIret s
  | .jp cc dst => Sys2Proof.Machine.execJp cc dst s
  | .jr cc disp => Sys2Proof.Machine.execJr cc disp s
  | .ret cc => Sys2Proof.Machine.execRet cc s
  | .sc src => Sys2Proof.Machine.execSc src s
  | .bit dst b => Sys2Proof.Machine.execBit dst b s
  | .bitb dst b => Sys2Proof.Machine.execBitb dst b s
  | .bitDyn d r2 => Sys2Proof.Machine.execBitDyn d r2 s
  | .bitbDyn d r2 => Sys2Proof.Machine.execBitbDyn d r2 s
  | .res dst b => Sys2Proof.Machine.execRes dst b s
  | .resb dst b => Sys2Proof.Machine.execResb dst b s
  | .resDyn d r2 => Sys2Proof.Machine.execResDyn d r2 s
  | .resbDyn d r2 => Sys2Proof.Machine.execResbDyn d r2 s
  | .set dst b => Sys2Proof.Machine.execSet dst b s
  | .setb dst b => Sys2Proof.Machine.execSetb dst b s
  | .setDyn d r2 => Sys2Proof.Machine.execSetDyn d r2 s
  | .setbDyn d r2 => Sys2Proof.Machine.execSetbDyn d r2 s
  | .tset dst => Sys2Proof.Machine.execTset dst s
  | .tsetb dst => Sys2Proof.Machine.execTsetb dst s
  | .rl d two => Sys2Proof.Machine.execRl d two s
  | .rlb d two => Sys2Proof.Machine.execRlb d two s
  | .rlc d two => Sys2Proof.Machine.execRlc d two s
  | .rlcb d two => Sys2Proof.Machine.execRlcb d two s
  | .rr d two => Sys2Proof.Machine.execRr d two s
  | .rrb d two => Sys2Proof.Machine.execRrb d two s
  | .rrc d two => Sys2Proof.Machine.execRrc d two s
  | .rrcb d two => Sys2Proof.Machine.execRrcb d two s
  | .rldb hi lo => Sys2Proof.Machine.execRldb hi lo s
  | .rrdb hi lo => Sys2Proof.Machine.execRrdb hi lo s
  | .sla d n => Sys2Proof.Machine.execSla d n s
  | .slab d n => Sys2Proof.Machine.execSlab d n s
  | .slal d n => Sys2Proof.Machine.execSlal d n s
  | .sll d n => Sys2Proof.Machine.execSll d n s
  | .sllb d n => Sys2Proof.Machine.execSllb d n s
  | .slll d n => Sys2Proof.Machine.execSlll d n s
  | .sra d n => Sys2Proof.Machine.execSra d n s
  | .srab d n => Sys2Proof.Machine.execSrab d n s
  | .sral d n => Sys2Proof.Machine.execSral d n s
  | .srl d n => Sys2Proof.Machine.execSrl d n s
  | .srlb d n => Sys2Proof.Machine.execSrlb d n s
  | .srll d n => Sys2Proof.Machine.execSrll d n s
  | .sda d r2 => Sys2Proof.Machine.execSda d r2 s
  | .sdab d r2 => Sys2Proof.Machine.execSdab d r2 s
  | .sdal d r2 => Sys2Proof.Machine.execSdal d r2 s
  | .sdl d r2 => Sys2Proof.Machine.execSdl d r2 s
  | .sdlb d r2 => Sys2Proof.Machine.execSdlb d r2 s
  | .sdll d r2 => Sys2Proof.Machine.execSdll d r2 s
  | .cpd d r2 r cc => Sys2Proof.Machine.execCpd d r2 r cc s
  | .cpdb d r2 r cc => Sys2Proof.Machine.execCpdb d r2 r cc s
  | .cpdr d r2 r cc => Sys2Proof.Machine.execCpdr d r2 r cc s
  | .cpdrb d r2 r cc => Sys2Proof.Machine.execCpdrb d r2 r cc s
  | .cpi d r2 r cc => Sys2Proof.Machine.execCpi d r2 r cc s
  | .cpib d r2 r cc => Sys2Proof.Machine.execCpib d r2 r cc s
  | .cpir d r2 r cc => Sys2Proof.Machine.execCpir d r2 r cc s
  | .cpirb d r2 r cc => Sys2Proof.Machine.execCpirb d r2 r cc s
  | .cpsd d r2 r cc => Sys2Proof.Machine.execCpsd d r2 r cc s
  | .cpsdb d r2 r cc => Sys2Proof.Machine.execCpsdb d r2 r cc s
  | .cpsdr d r2 r cc => Sys2Proof.Machine.execCpsdr d r2 r cc s
  | .cpsdrb d r2 r cc => Sys2Proof.Machine.execCpsdrb d r2 r cc s
  | .cpsi d r2 r cc => Sys2Proof.Machine.execCpsi d r2 r cc s
  | .cpsib d r2 r cc => Sys2Proof.Machine.execCpsib d r2 r cc s
  | .cpsir d r2 r cc => Sys2Proof.Machine.execCpsir d r2 r cc s
  | .cpsirb d r2 r cc => Sys2Proof.Machine.execCpsirb d r2 r cc s
  | .ldd d r2 r => Sys2Proof.Machine.execLdd d r2 r s
  | .lddb d r2 r => Sys2Proof.Machine.execLddb d r2 r s
  | .lddr d r2 r => Sys2Proof.Machine.execLddr d r2 r s
  | .lddrb d r2 r => Sys2Proof.Machine.execLddrb d r2 r s
  | .ldi d r2 r => Sys2Proof.Machine.execLdi d r2 r s
  | .ldib d r2 r => Sys2Proof.Machine.execLdib d r2 r s
  | .ldir d r2 r => Sys2Proof.Machine.execLdir d r2 r s
  | .ldirb d r2 r => Sys2Proof.Machine.execLdirb d r2 r s
  | .trdb d r2 r => Sys2Proof.Machine.execTrdb d r2 r s
  | .trdrb d r2 r => Sys2Proof.Machine.execTrdrb d r2 r s
  | .trib d r2 r => Sys2Proof.Machine.execTrib d r2 r s
  | .trirb d r2 r => Sys2Proof.Machine.execTrirb d r2 r s
  | .trtdb d r2 r => Sys2Proof.Machine.execTrtdb d r2 r s
  | .trtdrb d r2 r => Sys2Proof.Machine.execTrtdrb d r2 r s
  | .trtib d r2 r => Sys2Proof.Machine.execTrtib d r2 r s
  | .trtirb d r2 r => Sys2Proof.Machine.execTrtirb d r2 r s
  | .inReg d r2 => Sys2Proof.Machine.execInReg d r2 s
  | .inbReg d r2 => Sys2Proof.Machine.execInbReg d r2 s
  | .inPort d port => Sys2Proof.Machine.execInPort d port s
  | .inbPort d port => Sys2Proof.Machine.execInbPort d port s
  | .outReg d r2 => Sys2Proof.Machine.execOutReg d r2 s
  | .outbReg d r2 => Sys2Proof.Machine.execOutbReg d r2 s
  | .outPort port r2 => Sys2Proof.Machine.execOutPort port r2 s
  | .outbPort port r2 => Sys2Proof.Machine.execOutbPort port r2 s
  | .sin d port => Sys2Proof.Machine.execSin d port s
  | .sinb d port => Sys2Proof.Machine.execSinb d port s
  | .sout port r2 => Sys2Proof.Machine.execSout port r2 s
  | .soutb port r2 => Sys2Proof.Machine.execSoutb port r2 s
  | .ind d r2 r => Sys2Proof.Machine.execInd d r2 r s
  | .indb d r2 r => Sys2Proof.Machine.execIndb d r2 r s
  | .indr d r2 r => Sys2Proof.Machine.execIndr d r2 r s
  | .indrb d r2 r => Sys2Proof.Machine.execIndrb d r2 r s
  | .ini d r2 r => Sys2Proof.Machine.execIni d r2 r s
  | .inib d r2 r => Sys2Proof.Machine.execInib d r2 r s
  | .inir d r2 r => Sys2Proof.Machine.execInir d r2 r s
  | .inirb d r2 r => Sys2Proof.Machine.execInirb d r2 r s
  | .outd d r2 r => Sys2Proof.Machine.execOutd d r2 r s
  | .outdb d r2 r => Sys2Proof.Machine.execOutdb d r2 r s
  | .otdr d r2 r => Sys2Proof.Machine.execOtdr d r2 r s
  | .otdrb d r2 r => Sys2Proof.Machine.execOtdrb d r2 r s
  | .outi d r2 r => Sys2Proof.Machine.execOuti d r2 r s
  | .outib d r2 r => Sys2Proof.Machine.execOutib d r2 r s
  | .otir d r2 r => Sys2Proof.Machine.execOtir d r2 r s
  | .otirb d r2 r => Sys2Proof.Machine.execOtirb d r2 r s
  | .sind d r2 r => Sys2Proof.Machine.execSind d r2 r s
  | .sindb d r2 r => Sys2Proof.Machine.execSindb d r2 r s
  | .sindr d r2 r => Sys2Proof.Machine.execSindr d r2 r s
  | .sindrb d r2 r => Sys2Proof.Machine.execSindrb d r2 r s
  | .sini d r2 r => Sys2Proof.Machine.execSini d r2 r s
  | .sinib d r2 r => Sys2Proof.Machine.execSinib d r2 r s
  | .sinir d r2 r => Sys2Proof.Machine.execSinir d r2 r s
  | .sinirb d r2 r => Sys2Proof.Machine.execSinirb d r2 r s
  | .soutd d r2 r => Sys2Proof.Machine.execSoutd d r2 r s
  | .soutdb d r2 r => Sys2Proof.Machine.execSoutdb d r2 r s
  | .sotdr d r2 r => Sys2Proof.Machine.execSotdr d r2 r s
  | .sotdrb d r2 r => Sys2Proof.Machine.execSotdrb d r2 r s
  | .souti d r2 r => Sys2Proof.Machine.execSouti d r2 r s
  | .soutib d r2 r => Sys2Proof.Machine.execSoutib d r2 r s
  | .sotir d r2 r => Sys2Proof.Machine.execSotir d r2 r s
  | .sotirb d r2 r => Sys2Proof.Machine.execSotirb d r2 r s
  | .comflg f => Sys2Proof.Machine.execComflg f s
  | .resflg f => Sys2Proof.Machine.execResflg f s
  | .setflg f => Sys2Proof.Machine.execSetflg f s
  | .di vi nvi => Sys2Proof.Machine.execDi vi nvi s
  | .ei vi nvi => Sys2Proof.Machine.execEi vi nvi s
  | .halt => Sys2Proof.Machine.execHalt s
  | .nop => Sys2Proof.Machine.execNop s
  | .ldctlRead d ctl => Sys2Proof.Machine.execLdctlRead d ctl s
  | .ldctlWrite ctl r2 => Sys2Proof.Machine.execLdctlWrite ctl r2 s
  | .ldctlbRead d => Sys2Proof.Machine.execLdctlbRead d s
  | .ldctlbWrite r2 => Sys2Proof.Machine.execLdctlbWrite r2 s
  | .ldps src => Sys2Proof.Machine.execLdps src s
  | .mbit => Sys2Proof.Machine.execMbit s
  | .mreq d => Sys2Proof.Machine.execMreq d s
  | .mres => Sys2Proof.Machine.execMres s
  | .mset => Sys2Proof.Machine.execMset s

end Sys2Proof.Machine
end

