-- ==== Sys2Proof/Machine/Fetch.lean ====
section
/-! DEFINITION. What happens at an instruction boundary: the interrupts (spec/60_exceptions.md R512) and the fetch of the next
instruction (spec/10_state.md R36; spec/20_memory.md R89, R103). -/

namespace Sys2Proof.Machine

/-! ### Interrupts -/

/-- The requests presented at the coming boundary (log 10). -/
def State.presented (s : State) : Requests := s.requests.headD { nmi := none, vi := none, nvi := none }

/-- The request that is accepted: NMI before VI before NVI, the last two only when enabled (R509 to R512). -/
def acceptedRequest (q : Requests) (f : Fcw) : Option (TrapKind × Word) :=
  match q.nmi with
  | some ident => some (.nmi, ident)
  | none =>
    match (if f.vie then q.vi else none) with
    | some ident => some (.vi, ident)
    | none =>
      match (if f.nvie then q.nvi else none) with
      | some ident => some (.nvi, ident)
      | none => none

/-- The entry of an accepted interrupt: the saved PC is the address of the next instruction (R512, R517). The frame it pushes is no
store of an instruction: what R103 looks at stays what the last instruction stored, and that instruction, repeating or not, is
not the one executed next (log 12). -/
def State.takeInterrupt (s : State) (kind : TrapKind) (ident : Word) : Except Refusal State := do
  let t ← s.trapEntry kind ident s.pcOff
  .ok { t with stores := s.stores, repeating := false }

/-! ### Fetch -/

/-- The refusal of an encoding that decodes to nothing. -/
def refusalOf : DecodeError → Refusal
  | .undefinedEncoding => .undefinedEncoding
  | .badRegisterCode => .badRegisterCode
  | .badByteImmediate => .badByteImmediate
  | .badShiftCount => .badShiftCount

/-- The four words at the PC, the most an instruction has (spec/30_encoding.md R111). -/
def State.fetchWords (s : State) : List Word := [s.wordAt s.pc, s.wordAt (s.pc.plus 2), s.wordAt (s.pc.plus 4), s.wordAt (s.pc.plus 6)]

/-- The last instruction stored into one of the first `words` words at the PC (spec/20_memory.md R103). -/
def State.modified (s : State) (words : Nat) : Bool :=
  (List.range (2 * words)).any fun k => s.stores.contains (s.key (s.pc.plus (BitVec.ofNat 16 k)))

/-- The PC past an instruction of that many words (spec/10_state.md R36); nothing is stored yet, but for the earlier iterations of a
repeating instruction (spec/47_block_string.md R371; log 12). -/
def State.advanced (s : State) (words : Nat) : State :=
  { s with pcOff := s.pcOff + 2 * BitVec.ofNat 16 words, stores := if s.repeating then s.stores else [], repeating := false }

/-- What fetching gives. -/
inductive Fetched where
  /-- an instruction to execute, and the state with the PC past it -/
  | instr (i : Instr) (s : State)
  /-- the state after the privileged-instruction trap of a first word whose instruction decodes to nothing -/
  | trapped (s : State)
deriving DecidableEq, Repr

/-- The number of words of the system instruction whose first word is at the PC (spec/30_encoding.md R111). -/
def State.privilegedWords (s : State) : Nat := privilegedLength s.segmented (s.wordAt s.pc) (s.wordAt (s.pc.plus 2))

/-- A first word whose instruction decodes to nothing: in normal mode the first word of a system instruction still traps, since
the check comes before anything else (spec/60_exceptions.md R505; log 13), with the saved PC of R517, unless a byte of the
instruction was just stored (spec/20_memory.md R103); else the refusal. -/
def State.fetchFailed (s : State) (e : DecodeError) : Except Refusal Fetched :=
  if !s.fcw.sn && privilegedFirstWord (s.wordAt s.pc) then
    let n := s.privilegedWords
    if s.modified n then .error .modifiesNextInstruction
    else do
      let t ← (s.advanced n).trapEntry .privilegedInstruction (s.wordAt s.pc) ((s.advanced n).privilegedPc n)
      .ok (.trapped t)
  else .error (refusalOf e)

/-- The fetch of the next instruction. -/
def State.fetch (s : State) : Except Refusal Fetched :=
  if s.pcOff.getLsbD 0 then .error .oddPc
  else
    match decode s.segmented s.fetchWords with
    | .ok (i, _) =>
      if s.modified (lengthOf i) then .error .modifiesNextInstruction else .ok (.instr i (s.advanced (lengthOf i)))
    | .error e => s.fetchFailed e

/-- Words stored from an address on. -/
def State.placeWords (s : State) (a : Address) : List Word → State
  | [] => s
  | w :: ws => State.placeWords (s.putWord a w) (a.plus 2) ws

end Sys2Proof.Machine
end

