-- ==== Sys2Proof/Machine/Step.lean ====
section
/-! DEFINITION. One step of the machine: one instruction, or one iteration of a repeating one, or one accepted interrupt
(spec/60_exceptions.md R512; spec/47_block_string.md R371). -/

namespace Sys2Proof.Machine

/-- What a step does when no interrupt is accepted: nothing while halted (spec/49_cpu_control.md R449), else the next
instruction. -/
def stepInstr (s : State) : Host.Outcome State Fault Refusal :=
  if s.halted then .next s
  else
    match s.fetch with
    | .ok (.instr i t) => exec i t
    | .ok (.trapped t) => .next t
    | .error r => .refused r

/-- One step. The requests of this boundary are taken from the list. -/
def step (s : State) : Host.Outcome State Fault Refusal :=
  let t : State := { s with requests := s.requests.tail }
  match acceptedRequest s.presented s.fcw with
  | some (kind, ident) => finish (t.takeInterrupt kind ident)
  | none => stepInstr t

/-- The state with an opcode-table word placed where the next step fetches: four words at the PC, no interrupt waiting, not
halted, and nothing of it stored by an instruction (log 6). -/
def State.withFetchWord (s : State) (nbits w : Nat) : State :=
  { s.placeWords s.pc (tableWords nbits w) with halted := false, requests := [], stores := [], repeating := false }

end Sys2Proof.Machine
end

