-- ==== Sys2Proof/Safety.lean ====
section
/-! DEFINITION. The terms in which claims speak: the invariant, safe steps, and what each instruction may change. The tables below
are written from the instructions' rules, not from their meanings. -/

namespace Sys2Proof.Machine

/-! ### The invariant -/

/-- The PC is even (spec/10_state.md R39). -/
def State.pcEven (s : State) : Bool := !s.pcOff.getLsbD 0

/-- What the AMZ8002 does not have is at 0: SEG (spec/10_state.md R42), the segment numbers of the PC (R35) and the NPSAP (R60). -/
def State.fitsVariant (s : State) : Bool :=
  s.cfg.variant == .amz8001 || (!s.fcw.seg && s.pcSeg == 0 && s.psapSeg == 0)

/-- The number of byte addresses (spec/20_memory.md R80). -/
def addressCount : Variant → Nat
  | .amz8001 => 2 ^ 23
  | .amz8002 => 2 ^ 16

/-- The memory is in canonical form and lists existing addresses only. -/
def State.memOk (s : State) : Bool := s.mem.wf && s.mem.all fun c => decide (c.1 < addressCount s.cfg.variant)

/-- The invariant of the machine. -/
def State.inv (s : State) : Bool := s.pcEven && s.fitsVariant && s.memOk

/-- The next step does not stop. -/
def safeStep (s : State) : Prop := ∃ t, step s = .next t

/-! ### System instructions and traps -/

/-- The system instructions (spec/60_exceptions.md R504). -/
def isSystem : Instr → Bool
  | .iret | .di _ _ | .ei _ _ | .halt | .ldctlRead _ _ | .ldctlWrite _ _ | .ldps _ | .mbit | .mreq _ | .mres | .mset => true
  | .inReg _ _ | .inbReg _ _ | .inPort _ _ | .inbPort _ _ | .outReg _ _ | .outbReg _ _ | .outPort _ _ | .outbPort _ _ => true
  | .sin _ _ | .sinb _ _ | .sout _ _ | .soutb _ _ => true
  | .ind _ _ _ | .indb _ _ _ | .indr _ _ _ | .indrb _ _ _ | .ini _ _ _ | .inib _ _ _ | .inir _ _ _ | .inirb _ _ _ => true
  | .sind _ _ _ | .sindb _ _ _ | .sindr _ _ _ | .sindrb _ _ _ | .sini _ _ _ | .sinib _ _ _ | .sinir _ _ _ | .sinirb _ _ _ => true
  | .outd _ _ _ | .outdb _ _ _ | .otdr _ _ _ | .otdrb _ _ _ | .outi _ _ _ | .outib _ _ _ | .otir _ _ _ | .otirb _ _ _ => true
  | .soutd _ _ _ | .soutdb _ _ _ | .sotdr _ _ _ | .sotdrb _ _ _ | .souti _ _ _ | .soutib _ _ _ | .sotir _ _ _ | .sotirb _ _ _ => true
  | _ => false

/-- Executing the instruction is to take a trap: a system instruction in normal mode (spec/60_exceptions.md R505), or SC (R506). -/
def traps (i : Instr) (s : State) : Bool :=
  match i with
  | .sc _ => true
  | _ => isSystem i && !s.fcw.sn

/-! ### Registers -/

/-- The word register of a word operand. -/
def wordHome (r : RegCode) : List RegCode := [r]
/-- The word register that holds a byte register. -/
def byteHomes (r : RegCode) : List RegCode := [byteHome r]
/-- The word registers of a pair. -/
def pairHome (r : RegCode) : List RegCode := [r, r + 1]
/-- The word registers of a quadruple. -/
def quadHome (r : RegCode) : List RegCode := [r, r + 1, r + 2, r + 3]

/-- The word registers of a destination in R, IR, DA or X mode. -/
def regMemHome (home : RegCode → List RegCode) : RegMem → List RegCode
  | .reg r => home r
  | .mem _ => []

/-- The byte register of a destination in R, IR, DA or X mode. -/
def regMemBytes : RegMem → List RegCode
  | .reg c => [c]
  | .mem _ => []

/-- The registers an instruction names as destination or that its rule says it updates (a stack pointer, a count, a stepped address
register), as word register codes, but for the byte registers of `destBytes`. Not for the traps, IRET and the writes of NSPSEG
and NSPOFF. -/
def destCodes (s : State) : Instr → List RegCode
  | .clr dst => regMemHome wordHome dst
  | .ex d src => d :: regMemHome wordHome src
  | .ld d _ | .ldk d _ | .ldr d _ => wordHome d
  | .ldl d _ | .ldrl d _ => pairHome d
  | .lda d _ | .ldar d _ => if s.segmented then pairHome d else wordHome d
  | .ldmLoad d _ n => (List.range (n.toNat + 1)).map fun k => d + BitVec.ofNat 4 k
  | .pop dst sp => s.offReg sp :: regMemHome wordHome dst
  | .popl dst sp => s.offReg sp :: regMemHome pairHome dst
  | .push sp _ | .pushl sp _ | .pushImm sp _ => [s.offReg sp]
  | .adc d _ | .sbc d _ => wordHome d
  | .add d _ | .sub d _ | .and d _ | .or d _ | .xor d _ => wordHome d
  | .addl d _ | .subl d _ => pairHome d
  | .dec dst _ | .inc dst _ | .neg dst | .com dst | .tset dst => regMemHome wordHome dst
  | .div d _ | .mult d _ | .exts d => pairHome d
  | .divl d _ | .multl d _ | .extsl d => quadHome d
  | .extsb d | .tcc _ d => wordHome d
  | .call _ | .calr _ | .ret _ => [15]
  | .djnz r _ => wordHome r
  | .res dst _ | .set dst _ => regMemHome wordHome dst
  | .resDyn d _ | .setDyn d _ => wordHome d
  | .rl d _ | .rlc d _ | .rr d _ | .rrc d _ => wordHome d
  | .sla d _ | .sll d _ | .sra d _ | .srl d _ | .sda d _ | .sdl d _ => wordHome d
  | .slal d _ | .slll d _ | .sral d _ | .srll d _ | .sdal d _ | .sdll d _ => pairHome d
  | .cpd _ p r _ | .cpdb _ p r _ | .cpdr _ p r _ | .cpdrb _ p r _ | .cpi _ p r _ | .cpib _ p r _ | .cpir _ p r _ | .cpirb _ p r _ =>
    [s.offReg p, r]
  | .cpsd d p r _ | .cpsdb d p r _ | .cpsdr d p r _ | .cpsdrb d p r _ | .cpsi d p r _ | .cpsib d p r _ | .cpsir d p r _ | .cpsirb d p r _ =>
    [s.offReg p, s.offReg d, r]
  | .ldd d p r | .lddb d p r | .lddr d p r | .lddrb d p r | .ldi d p r | .ldib d p r | .ldir d p r | .ldirb d p r =>
    [s.offReg p, s.offReg d, r]
  | .trdb d _ r | .trdrb d _ r | .trib d _ r | .trirb d _ r => [s.offReg d, r]
  | .trtdb d _ r | .trtdrb d _ r | .trtib d _ r | .trtirb d _ r => [s.offReg d, r]
  | .inReg d _ | .inPort d _ | .sin d _ => wordHome d
  | .ind d _ r | .indb d _ r | .indr d _ r | .indrb d _ r | .ini d _ r | .inib d _ r | .inir d _ r | .inirb d _ r => [s.offReg d, r]
  | .sind d _ r | .sindb d _ r | .sindr d _ r | .sindrb d _ r | .sini d _ r | .sinib d _ r | .sinir d _ r | .sinirb d _ r =>
    [s.offReg d, r]
  | .outd _ p r | .outdb _ p r | .otdr _ p r | .otdrb _ p r | .outi _ p r | .outib _ p r | .otir _ p r | .otirb _ p r => [s.offReg p, r]
  | .soutd _ p r | .soutdb _ p r | .sotdr _ p r | .sotdrb _ p r | .souti _ p r | .soutib _ p r | .sotir _ p r | .sotirb _ p r =>
    [s.offReg p, r]
  | .ldctlRead d _ | .mreq d => wordHome d
  | _ => []

/-- The byte registers an instruction names as destination, as byte register codes, RH1 for the translate-and-test forms. -/
def destBytes : Instr → List RegCode
  | .clrb dst => regMemBytes dst
  | .exb d src => d :: regMemBytes src
  | .ldb d _ | .ldbk d _ | .ldrb d _ => [d]
  | .adcb d _ | .sbcb d _ => [d]
  | .addb d _ | .subb d _ | .andb d _ | .orb d _ | .xorb d _ => [d]
  | .dab d => [d]
  | .decb dst _ | .incb dst _ | .negb dst | .comb dst | .tsetb dst => regMemBytes dst
  | .tccb _ d => [d]
  | .dbjnz r _ => [r]
  | .resb dst _ | .setb dst _ => regMemBytes dst
  | .resbDyn d _ | .setbDyn d _ => [d]
  | .rlb d _ | .rlcb d _ | .rrb d _ | .rrcb d _ => [d]
  | .rldb hi lo | .rrdb hi lo => [hi, lo]
  | .slab d _ | .sllb d _ | .srab d _ | .srlb d _ | .sdab d _ | .sdlb d _ => [d]
  | .trtdb _ _ _ | .trtdrb _ _ _ | .trtib _ _ _ | .trtirb _ _ _ => [1]
  | .inbReg d _ | .inbPort d _ | .sinb d _ => [d]
  | .ldctlbRead d => [d]
  | _ => []

/-- The physical registers an instruction may change as words: a trap and IRET move the system stack pointer only
(spec/60_exceptions.md R515; spec/44_program_control.md R305), the writes of NSPSEG and NSPOFF reach Rn14 and Rn15
(spec/49_cpu_control.md R452). -/
def changedWords (i : Instr) (s : State) : List (Fin 18) :=
  if traps i s then [17]
  else match i with
    | .iret => [17]
    | .ldctlWrite .nspseg _ => [14]
    | .ldctlWrite .nspoff _ => [15]
    | _ => (destCodes s i).map s.phys

/-- The byte registers an instruction may change. -/
def changedBytes (i : Instr) (s : State) : List RegCode := if traps i s then [] else destBytes i

/-- The physical registers an instruction may change. -/
def changedRegs (i : Instr) (s : State) : List (Fin 18) :=
  changedWords i s ++ (changedBytes i s).map fun c => s.phys (byteHome c)

/-- A half of a physical register, the low byte or the high one (spec/10_state.md R23). -/
def State.halfReg (s : State) (j : Fin 18) (low : Bool) : Byte := if low then loByte s.gr[j] else hiByte s.gr[j]

/-- The halves of physical registers an instruction may change, `true` for the low byte: both of a word register, the named one of
a byte register, whose other half is unchanged (spec/10_state.md R23; spec/41_load_exchange.md R201). -/
def changedHalves (i : Instr) (s : State) : List (Fin 18 × Bool) :=
  ((changedWords i s).flatMap fun j => [(j, false), (j, true)]) ++
    (changedBytes i s).map fun c => (s.phys (byteHome c), c.getLsbD 3)

/-! ### Memory -/

/-- The addresses of k bytes from a on; the offset wraps (spec/20_memory.md R92). -/
def State.keysFrom (s : State) (a : Address) (k : Nat) : List Nat := (List.range k).map fun j => s.key (a.plus (BitVec.ofNat 16 j))

/-- The address of an R, IR, DA or X destination, if it is in memory. -/
def regMemAddr (s : State) : RegMem → Option (Except Refusal Address)
  | .reg _ => none
  | .mem m => some (s.ea m)

/-- Where a push by address register n stores k bytes. -/
def pushAddr (s : State) (n : RegCode) (k : Word) : Except Refusal Address := do
  let a ← s.addrReg n
  .ok (a.plus (-k))

/-- Where an instruction that does not trap stores: the address and the number of bytes. -/
def storeAddr (s : State) : Instr → Option (Except Refusal Address) × Nat
  | .clr dst | .ex _ dst | .dec dst _ | .inc dst _ | .neg dst | .com dst | .tset dst | .res dst _ | .set dst _ | .pop dst _ =>
    (regMemAddr s dst, 2)
  | .clrb dst | .exb _ dst | .decb dst _ | .incb dst _ | .negb dst | .comb dst | .tsetb dst | .resb dst _ | .setb dst _ =>
    (regMemAddr s dst, 1)
  | .popl dst _ => (regMemAddr s dst, 4)
  | .ldStore dst _ => (some (s.eaLd dst), 2)
  | .ldbStore dst _ => (some (s.eaLd dst), 1)
  | .ldlStore dst _ => (some (s.eaLd dst), 4)
  | .ldStoreImm dst _ => (some (s.ea dst), 2)
  | .ldbStoreImm dst _ => (some (s.ea dst), 1)
  | .ldmStore dst _ n => (some (s.ea dst), 2 * (n.toNat + 1))
  | .ldrStore disp _ => (some (.ok (s.eaRa disp)), 2)
  | .ldrbStore disp _ => (some (.ok (s.eaRa disp)), 1)
  | .ldrlStore disp _ => (some (.ok (s.eaRa disp)), 4)
  | .push sp _ | .pushImm sp _ => (some (pushAddr s sp 2), 2)
  | .pushl sp _ => (some (pushAddr s sp 4), 4)
  | .call _ | .calr _ => if s.segmented then (some (pushAddr s 14 4), 4) else (some (pushAddr s 15 2), 2)
  | .ldd d _ _ | .lddr d _ _ | .ldi d _ _ | .ldir d _ _ => (some (s.addrReg d), 2)
  | .lddb d _ _ | .lddrb d _ _ | .ldib d _ _ | .ldirb d _ _ => (some (s.addrReg d), 1)
  | .trdb d _ _ | .trdrb d _ _ | .trib d _ _ | .trirb d _ _ => (some (s.addrReg d), 1)
  | .ind d _ _ | .indr d _ _ | .ini d _ _ | .inir d _ _ | .sind d _ _ | .sindr d _ _ | .sini d _ _ | .sinir d _ _ =>
    (some (s.addrReg d), 2)
  | .indb d _ _ | .indrb d _ _ | .inib d _ _ | .inirb d _ _ | .sindb d _ _ | .sindrb d _ _ | .sinib d _ _ | .sinirb d _ _ =>
    (some (s.addrReg d), 1)
  | _ => (none, 0)

/-- The bytes of the frame that a trap pushes (spec/60_exceptions.md R515). -/
def frameKeys (s : State) : List Nat :=
  match s.cfg.variant with
  | .amz8001 => s.keysFrom (Address.plus { seg := segOf s.rs14, off := s.rs15 } (-8)) 8
  | .amz8002 => s.keysFrom (Address.plus { seg := s.pcSeg, off := s.rs15 } (-6)) 6

/-- The byte addresses an instruction stores to. -/
def storedKeys (i : Instr) (s : State) : List Nat :=
  if traps i s then frameKeys s
  else match storeAddr s i with
    | (some (.ok a), k) => s.keysFrom a k
    | _ => []

/-! ### The FCW -/

/-- The fields of the FCW (spec/10_state.md R45). -/
inductive FcwBit where
  | seg
  | sn
  | se
  | vie
  | nvie
  | c
  | z
  | s
  | pv
  | da
  | h
deriving DecidableEq, Repr

/-- The value of a field. -/
def Fcw.bit (f : Fcw) : FcwBit → Bool
  | .seg => f.seg
  | .sn => f.sn
  | .se => f.se
  | .vie => f.vie
  | .nvie => f.nvie
  | .c => f.c
  | .z => f.z
  | .s => f.s
  | .pv => f.pv
  | .da => f.da
  | .h => f.h

/-- Every field. -/
def allBits : List FcwBit := [.seg, .sn, .se, .vie, .nvie, .c, .z, .s, .pv, .da, .h]

/-- The fields that the "Flags" line of an instruction's rule names; for translate and test also C and S, which are left open
(spec/93_implementation_defined.md U4; log 16). -/
def flagBits : Instr → List FcwBit
  | .adc _ _ | .add _ _ | .addl _ _ | .sbc _ _ | .sub _ _ | .subl _ _ => [.c, .z, .s, .pv]
  | .adcb _ _ | .addb _ _ | .sbcb _ _ | .subb _ _ => [.c, .z, .s, .pv, .da, .h]
  | .cp _ _ | .cpb _ _ | .cpl _ _ | .cpMemImm _ _ | .cpbMemImm _ _ | .dab _ | .neg _ | .negb _ => [.c, .z, .s, .pv]
  | .div _ _ | .divl _ _ | .mult _ _ | .multl _ _ => [.c, .z, .s, .pv]
  | .dec _ _ | .decb _ _ | .inc _ _ | .incb _ _ => [.z, .s, .pv]
  | .and _ _ | .or _ _ | .xor _ _ | .com _ | .test _ | .testl _ => [.z, .s]
  | .andb _ _ | .orb _ _ | .xorb _ _ | .comb _ | .testb _ => [.z, .s, .pv]
  | .bit _ _ | .bitb _ _ | .bitDyn _ _ | .bitbDyn _ _ => [.z]
  | .tset _ | .tsetb _ | .mbit => [.s]
  | .rl _ _ | .rlb _ _ | .rlc _ _ | .rlcb _ _ | .rr _ _ | .rrb _ _ | .rrc _ _ | .rrcb _ _ => [.c, .z, .s, .pv]
  | .rldb _ _ | .rrdb _ _ | .mreq _ => [.z, .s]
  | .sla _ _ | .slab _ _ | .slal _ _ | .sll _ _ | .sllb _ _ | .slll _ _ | .sra _ _ | .srab _ _ | .sral _ _ => [.c, .z, .s, .pv]
  | .srl _ _ | .srlb _ _ | .srll _ _ | .sda _ _ | .sdab _ _ | .sdal _ _ | .sdl _ _ | .sdlb _ _ | .sdll _ _ => [.c, .z, .s, .pv]
  | .cpd _ _ _ _ | .cpdb _ _ _ _ | .cpdr _ _ _ _ | .cpdrb _ _ _ _ | .cpi _ _ _ _ | .cpib _ _ _ _ | .cpir _ _ _ _ | .cpirb _ _ _ _ =>
    [.c, .z, .s, .pv]
  | .cpsd _ _ _ _ | .cpsdb _ _ _ _ | .cpsdr _ _ _ _ | .cpsdrb _ _ _ _ | .cpsi _ _ _ _ | .cpsib _ _ _ _ | .cpsir _ _ _ _
  | .cpsirb _ _ _ _ => [.c, .z, .s, .pv]
  | .ldd _ _ _ | .lddb _ _ _ | .lddr _ _ _ | .lddrb _ _ _ | .ldi _ _ _ | .ldib _ _ _ | .ldir _ _ _ | .ldirb _ _ _ => [.z, .pv]
  | .trdb _ _ _ | .trdrb _ _ _ | .trib _ _ _ | .trirb _ _ _ => [.z, .pv]
  | .trtdb _ _ _ | .trtdrb _ _ _ | .trtib _ _ _ | .trtirb _ _ _ => [.c, .z, .s, .pv]
  | .ind _ _ _ | .indb _ _ _ | .indr _ _ _ | .indrb _ _ _ | .ini _ _ _ | .inib _ _ _ | .inir _ _ _ | .inirb _ _ _ => [.z, .pv]
  | .sind _ _ _ | .sindb _ _ _ | .sindr _ _ _ | .sindrb _ _ _ | .sini _ _ _ | .sinib _ _ _ | .sinir _ _ _ | .sinirb _ _ _ => [.z, .pv]
  | .outd _ _ _ | .outdb _ _ _ | .otdr _ _ _ | .otdrb _ _ _ | .outi _ _ _ | .outib _ _ _ | .otir _ _ _ | .otirb _ _ _ => [.z, .pv]
  | .soutd _ _ _ | .soutdb _ _ _ | .sotdr _ _ _ | .sotdrb _ _ _ | .souti _ _ _ | .soutib _ _ _ | .sotir _ _ _ | .sotirb _ _ _ => [.z, .pv]
  | .comflg f | .resflg f | .setflg f =>
    (if f.getLsbD 3 then [.c] else []) ++ (if f.getLsbD 2 then [.z] else []) ++ (if f.getLsbD 1 then [.s] else []) ++
      (if f.getLsbD 0 then [.pv] else [])
  | .di vi nvi | .ei vi nvi => (if vi then [.vie] else []) ++ (if nvi then [.nvie] else [])
  | .ldctlbWrite _ => [.c, .z, .s, .pv, .da, .h]
  | .iret | .ldps _ | .ldctlWrite .fcw _ => allBits
  | _ => []

/-- The fields an instruction may change; a trap replaces the whole FCW (spec/60_exceptions.md R515). -/
def changedBits (i : Instr) (s : State) : List FcwBit := if traps i s then allBits else flagBits i

/-! ### The rest of the state -/

/-- The instruction asks a port (spec/48_input_output.md R413, R414, R417, R421, R422, R425, R426). -/
def readsPort : Instr → Bool
  | .inReg _ _ | .inbReg _ _ | .inPort _ _ | .inbPort _ _ | .sin _ _ | .sinb _ _ => true
  | .ind _ _ _ | .indb _ _ _ | .indr _ _ _ | .indrb _ _ _ | .ini _ _ _ | .inib _ _ _ | .inir _ _ _ | .inirb _ _ _ => true
  | .sind _ _ _ | .sindb _ _ _ | .sindr _ _ _ | .sindrb _ _ _ | .sini _ _ _ | .sinib _ _ _ | .sinir _ _ _ | .sinirb _ _ _ => true
  | _ => false

/-- The instruction writes a port (spec/48_input_output.md R415, R416, R418, R423, R424, R427, R428). -/
def writesPort : Instr → Bool
  | .outReg _ _ | .outbReg _ _ | .outPort _ _ | .outbPort _ _ | .sout _ _ | .soutb _ _ => true
  | .outd _ _ _ | .outdb _ _ _ | .otdr _ _ _ | .otdrb _ _ _ | .outi _ _ _ | .outib _ _ _ | .otir _ _ _ | .otirb _ _ _ => true
  | .soutd _ _ _ | .soutdb _ _ _ | .sotdr _ _ _ | .sotdrb _ _ _ | .souti _ _ _ | .soutib _ _ _ | .sotir _ _ _ | .sotirb _ _ _ => true
  | _ => false

/-- The instruction writes the multi-micro output line (spec/49_cpu_control.md R455). -/
def writesLine : Instr → Bool
  | .mreq _ | .mres | .mset => true
  | _ => false

/-- The instruction may change the segment number of the PC (spec/44_program_control.md; spec/49_cpu_control.md R454). -/
def changesPcSeg : Instr → Bool
  | .call _ | .jp _ _ | .ret _ | .iret | .ldps _ => true
  | _ => false

/-- The repeating forms of the block instructions (spec/47_block_string.md R371; spec/48_input_output.md). -/
def repeats : Instr → Bool
  | .cpdr _ _ _ _ | .cpdrb _ _ _ _ | .cpir _ _ _ _ | .cpirb _ _ _ _ => true
  | .cpsdr _ _ _ _ | .cpsdrb _ _ _ _ | .cpsir _ _ _ _ | .cpsirb _ _ _ _ => true
  | .lddr _ _ _ | .lddrb _ _ _ | .ldir _ _ _ | .ldirb _ _ _ | .trdrb _ _ _ | .trirb _ _ _ | .trtdrb _ _ _ | .trtirb _ _ _ => true
  | .indr _ _ _ | .indrb _ _ _ | .inir _ _ _ | .inirb _ _ _ | .sindr _ _ _ | .sindrb _ _ _ | .sinir _ _ _ | .sinirb _ _ _ => true
  | .otdr _ _ _ | .otdrb _ _ _ | .otir _ _ _ | .otirb _ _ _ | .sotdr _ _ _ | .sotdrb _ _ _ | .sotir _ _ _ | .sotirb _ _ _ => true
  | _ => false

/-- The instruction may change the offset of the PC beyond its own words (spec/44_program_control.md; spec/49_cpu_control.md R454;
spec/47_block_string.md R371, for the repeating forms). -/
def changesPcOff (i : Instr) : Bool :=
  repeats i || match i with
    | .call _ | .calr _ | .djnz _ _ | .dbjnz _ _ | .iret | .jp _ _ | .jr _ _ | .ret _ | .ldps _ => true
    | _ => false

/-! ### Values and flags, as integers -/

/-- The address is even. -/
abbrev Address.isEven (a : Address) : Bool := !a.off.getLsbD 0

/-- The integer x is a signed number of n bits. -/
def fitsSigned (n : Nat) (x : Int) : Prop := -(2 ^ (n - 1)) ≤ x ∧ x < 2 ^ (n - 1)

/-- r is the exact signed result x cut to n bits; Z, S and P/V say that r is 0, that r is negative, and that x did not fit (spec/42_arithmetic.md
R241, R242). -/
structure IsResult {n : Nat} (x : Int) (r : BitVec n) (f : Fcw) : Prop where
  value : r = BitVec.ofInt n x
  zero : f.z = true ↔ r = 0
  sign : f.s = true ↔ r.toInt < 0
  overflow : f.pv = true ↔ ¬ fitsSigned n x

/-- The carry of an addition: the unsigned sum does not fit (spec/42_arithmetic.md R241). -/
def carries {n : Nat} (a b : BitVec n) (cin : Bool) : Prop := 2 ^ n ≤ a.toNat + b.toNat + cin.toNat

/-- The borrow of a subtraction (spec/42_arithmetic.md R242). -/
def borrows {n : Nat} (a b : BitVec n) (bin : Bool) : Prop := a.toNat < b.toNat + bin.toNat

/-- The number of 1 bits of a byte. -/
def onesOf (v : Byte) : Nat := (List.range 8).countP fun i => v.getLsbD i

/-- Z and S of a logical result; for a byte P/V is 1 for an even number of 1 bits, else P/V is kept (spec/43_logical.md R280). `old` are
the flags before. -/
structure IsLogical {n : Nat} (r : BitVec n) (old f : Fcw) : Prop where
  zero : f.z = true ↔ r = 0
  sign : f.s = r.msb
  parity : if n = 8 then (f.pv = true ↔ onesOf (r.setWidth 8) % 2 = 0) else f.pv = old.pv

/-- r is v shifted by c places, to the left for c > 0 (spec/46_rotate_shift.md R351 to R357); C for a count of 0 and P/V of the
logical kind are left open. -/
structure IsShift {n : Nat} (arithmetic : Bool) (v : BitVec n) (c : Int) (r : BitVec n) (f : Fcw) : Prop where
  zero : f.z = true ↔ r = 0
  sign : f.s = r.msb
  left : 0 ≤ c → r = BitVec.ofInt n (v.toInt * 2 ^ c.toNat)
  leftOut : 0 < c → f.c = v.getLsbD (n - c.toNat)
  right : c < 0 → if arithmetic then r.toInt = v.toInt / 2 ^ (-c).toNat else r.toNat = v.toNat / 2 ^ (-c).toNat
  rightOut : c < 0 → f.c = v.getLsbD ((-c).toNat - 1)
  overflow : arithmetic = true → (f.pv = true ↔ ¬ fitsSigned n (v.toInt * 2 ^ c.toNat))

/-- The FCW holds the word w; SEG is taken from it on the AMZ8001 and kept on the AMZ8002 (spec/49_cpu_control.md R440). -/
structure IsStatus (v : Variant) (old f : Fcw) (w : Word) : Prop where
  low : ∀ i, i < 15 → f.word.getLsbD i = w.getLsbD i
  seg : f.seg = if v = .amz8001 then w.getLsbD 15 else old.seg

/-! ### Trap entry -/

/-- The address of the word at byte offset k of the new program status area (spec/60_exceptions.md R522). -/
def State.psaAddr (s : State) (k : Word) : Address := { seg := s.psapSeg, off := (s.psapOff ++ 0#8) + k }

/-- The offsets of the words of an entry (spec/60_exceptions.md R520, R521). -/
def entryOffsets (v : Variant) (kind : TrapKind) (ident : Word) : List Word :=
  match v with
  | .amz8001 => [psaFcw v kind, psaPc v kind ident, psaPc v kind ident + 2]
  | .amz8002 => [psaFcw v kind, psaPc v kind ident]

/-- The new FCW word that the entry of an event holds. -/
def State.newFcw (s : State) (kind : TrapKind) : Word := s.wordAt (s.psaAddr (psaFcw s.cfg.variant kind))

/-- The new segment number of the PC; the AMZ8002 has none. -/
def State.newPcSeg (s : State) (kind : TrapKind) (ident : Word) : SegNum :=
  match s.cfg.variant with
  | .amz8001 => segOf (s.wordAt (s.psaAddr (psaPc s.cfg.variant kind ident)))
  | .amz8002 => s.pcSeg

/-- The new offset of the PC. -/
def State.newPcOff (s : State) (kind : TrapKind) (ident : Word) : Word :=
  match s.cfg.variant with
  | .amz8001 => s.wordAt (s.psaAddr (psaPc s.cfg.variant kind ident + 2))
  | .amz8002 => s.wordAt (s.psaAddr (psaPc s.cfg.variant kind ident))

/-- The system stack and the new program status area are fit for an event: the memory is in canonical form, the stack pointer is
even, the frame does not overwrite the entry, and the entry holds a valid FCW and an even PC (spec/70_reset_and_hazards.md R566). -/
def State.trapReady (s : State) (kind : TrapKind) (ident : Word) : Bool :=
  s.mem.wf && !s.rs15.getLsbD 0 && fcwReservedClear (s.newFcw kind) && !(s.newPcOff kind ident).getLsbD 0 &&
    (entryOffsets s.cfg.variant kind ident).all fun k =>
      !(frameKeys s).contains (s.key (s.psaAddr k)) && !(frameKeys s).contains (s.key ((s.psaAddr k).plus 1))

/-- The address of the system stack pointer (spec/10_state.md R34). -/
def State.systemStack (s : State) : Address :=
  match s.cfg.variant with
  | .amz8001 => { seg := segOf s.rs14, off := s.rs15 }
  | .amz8002 => { seg := s.pcSeg, off := s.rs15 }

/-- The PC that the privileged-instruction trap saves for an instruction of k words at the PC (spec/60_exceptions.md R517). -/
def State.trapPc (s : State) (k : Nat) : Word :=
  match s.cfg.privTrapPc with
  | .firstWordPlus2 => s.pcOff + 2
  | .nextInstruction => s.pcOff + 2 * BitVec.ofNat 16 k

/-- What the entry of an event leaves (spec/60_exceptions.md R515), all the rest as before: s is the state before, t after. -/
structure IsEntered (s : State) (kind : TrapKind) (ident savedOff : Word) (t : State) : Prop where
  status : IsStatus s.cfg.variant s.fcw t.fcw (s.newFcw kind)
  pcSeg : t.pcSeg = s.newPcSeg kind ident
  pcOff : t.pcOff = s.newPcOff kind ident
  halted : t.halted = false
  identWord : t.wordAt t.systemStack = ident
  fcwWord : t.wordAt (t.systemStack.plus 2) = s.fcw.word
  savedPc : match s.cfg.variant with
    | .amz8001 => t.rs15 = s.rs15 - 8 ∧ segOf (t.wordAt (t.systemStack.plus 4)) = s.pcSeg ∧ t.wordAt (t.systemStack.plus 6) = savedOff
    | .amz8002 => t.rs15 = s.rs15 - 6 ∧ t.wordAt (t.systemStack.plus 4) = savedOff
  otherRegs : ∀ j : Fin 18, j ≠ 17 → t.gr[j] = s.gr[j]
  otherBytes : ∀ a : Address, s.key a ∉ frameKeys s → t.readByte a = s.readByte a
  otherState : t.cfg = s.cfg ∧ t.psapSeg = s.psapSeg ∧ t.psapOff = s.psapOff ∧ t.refresh = s.refresh ∧
    t.multiMicroOut = s.multiMicroOut ∧ t.events = s.events ∧ t.portAnswers = s.portAnswers

/-- The register code of the implied stack pointer (spec/44_program_control.md R301). -/
def State.spCode (s : State) : RegCode := if s.segmented then 14 else 15

/-- The PC after one iteration of a repeating block instruction is its own address, unless it is done; a single form goes on
(spec/47_block_string.md R371). -/
def State.blockPc (s : State) (repeats done : Bool) : Word := if repeats && !done then s.pcOff - 4 else s.pcOff

end Sys2Proof.Machine
end

