-- ==== Sys2Proof/Certificates/Slice0/Obligations.lean ====
section
/-! DEFINITION. The statements for the provers, each `def Obligations.<Name> : Prop`; OBLIGATIONS.json lists them. Statements about a free
value hold for every value of it. -/

open Sys2Proof Sys2Proof.Machine

/-! ### Encoding -/

/-- For every instruction that is well formed in the addressing mode in force (segmented or not), every operand value its encoding admits,
and any words after it: decoding the encoded words followed by those words gives the instruction and leaves exactly those words. (R111,
R112, R113, R114, R118, R121, R125) -/
def Obligations.EncodeDecodeRoundTrip : Prop :=
  ∀ (seg : Bool) (i : Instr) (rest : List Word), wellFormed seg i = true → decode seg (encode i ++ rest) = .ok (i, rest)

/-- Whenever a word list decodes to an instruction and a rest, the instruction is well formed, its first word is the first word of the list,
and the rest is the list without as many words as the instruction has. (R111, R114, R135, R137) -/
def Obligations.DecodedIsWellFormed : Prop :=
  ∀ (seg : Bool) (ws : List Word) (i : Instr) (rest : List Word), decode seg ws = .ok (i, rest) →
    wellFormed seg i = true ∧ ws.head? = some (firstWord i) ∧ ws.length = lengthOf i + rest.length ∧ rest = ws.drop (lengthOf i)

/-- Whenever a word list decodes to an instruction, the test of the first word that decides the privilege check answers true exactly when
the instruction is in the list of system instructions. For a system instruction the number of words that its first two words alone give is
the number of its words. (R111, R118, R411, R504, R505) -/
def Obligations.PrivilegedFirstWordsAreSystem : Prop :=
  ∀ (seg : Bool) (w : Word) (ws : List Word) (i : Instr) (rest : List Word), decode seg (w :: ws) = .ok (i, rest) →
    privilegedFirstWord w = isSystem i ∧ (isSystem i = true → privilegedLength seg w (ws.headD 0) = lengthOf i)

/-- A sanity check on one word sequence for each of several families, bit patterns taken from the Encoding and Example lines, two of them
segmented addresses. (R203, R245, R281, R302, R305, R321, R353, R384, R422, R452, R118) -/
def Obligations.SpecWordsDecode : Prop :=
  decode false [0x8121] = .ok (.add 1 (.reg 2), []) ∧
  decode false [0x2101, 0x1234] = .ok (.ld 1 (.imm 0x1234), []) ∧
  decode false [0x5F00, 0x0200] = .ok (.call (.da (.plain 0x0200)), []) ∧
  decode false [0x7B00] = .ok (.iret, []) ∧
  decode false [0xA71F] = .ok (.bit (.reg 1) 15, []) ∧
  decode false [0xB319, 0xFFFF] = .ok (.sra 1 1, []) ∧
  decode false [0xBB11, 0x0328] = .ok (.ldi 2 1 3, []) ∧
  decode false [0x3A20, 0x0340] = .ok (.inirb 4 2 3, []) ∧
  decode false [0x7D1D] = .ok (.ldctlWrite .psapoff 1, []) ∧
  decode true [0x6101, 0x0134] = .ok (.ld 1 (.mem (.mem (.da (.short 1 0x34)))), []) ∧
  decode true [0x6101, 0x8100, 0x1234] = .ok (.ld 1 (.mem (.mem (.da (.long 1 0x1234)))), [])

/-! ### The step -/

/-- When the machine is not halted, no interrupt request is accepted, the PC is even, the words at the PC decode to an instruction, and no
byte of it was stored by the last instruction, the step is that instruction executed with the PC past its words, the requests of this
boundary taken and the note of stores emptied, but kept when the last step was an unfinished iteration of a repeating instruction. That the
stores of the last instruction, all its iterations together, are noted in the state and looked at here is the model's choice (log 12), for
the refusal of a store into the next instruction. (R36, R89, R103, R371, R512) -/
def Obligations.StepRunsDecodedInstruction : Prop :=
  ∀ (s : State) (i : Instr) (rest : List Word), s.halted = false → acceptedRequest s.presented s.fcw = none → s.pc.isEven = true →
    decode s.segmented s.fetchWords = .ok (i, rest) →
    (∀ k, k < 2 * lengthOf i → s.key (s.pc.plus (BitVec.ofNat 16 k)) ∉ s.stores) →
    step s = exec i { s with
      requests := s.requests.tail
      pcOff := s.pcOff + 2 * BitVec.ofNat 16 (lengthOf i)
      stores := if s.repeating then s.stores else []
      repeating := false }

/-- Of the requests presented at a boundary NMI is accepted whatever the FCW; VI only when NMI is not presented and VIE is 1; NVI only when
neither is accepted and NVIE is 1; otherwise none. (R509, R510, R511, R512) -/
def Obligations.InterruptPriority : Prop :=
  ∀ (q : Requests) (f : Fcw),
    (∀ w, q.nmi = some w → acceptedRequest q f = some (.nmi, w)) ∧
    (∀ w, q.nmi = none → q.vi = some w → f.vie = true → acceptedRequest q f = some (.vi, w)) ∧
    (∀ w, q.nmi = none → (q.vi = none ∨ f.vie = false) → q.nvi = some w → f.nvie = true → acceptedRequest q f = some (.nvi, w)) ∧
    (q.nmi = none → (q.vi = none ∨ f.vie = false) → (q.nvi = none ∨ f.nvie = false) → acceptedRequest q f = none)

/-- When a request is accepted and the system stack and the new program status area are fit, the step answers the state that trap entry
leaves: the FCW, the PC of the next instruction and the identifier are on the system stack, the new FCW and PC come from the entry of the
kind, the machine is not halted, no register but the system stack pointer changes, every byte of memory outside the frame reads as before,
and NPSAP, REFRESH, MO, the events, the port answers and the parameters are unchanged. It is so whether the machine was halted or not. The
entry of privileged instruction, system call, NMI, NVI and VI has its FCW at byte offset 18, 26, 42, 50 and 58 of the area on the AMZ8001,
at 8, 12, 20, 24 and 28 on the AMZ8002, and its PC 2 further, for VI further by twice the low byte of the identifier. The note of stores
stays over the entry, for the first instruction of the handler (log 12). (R512, R515, R517, R520, R521, R522) -/
def Obligations.InterruptIsEntered : Prop :=
  (∀ (s : State) (kind : TrapKind) (w : Word), acceptedRequest s.presented s.fcw = some (kind, w) → s.trapReady kind w = true →
    ∃ t, step s = .next t ∧ IsEntered s kind w s.pcOff t ∧ t.requests = s.requests.tail ∧ t.stores = s.stores ∧ t.repeating = false) ∧
  (∀ (w : Word) (kind : TrapKind) (fcw pc : Word), (kind, fcw, pc) ∈ [(TrapKind.privilegedInstruction, 18#16, 20#16), (.systemCall, 26#16, 28#16),
      (.nmi, 42#16, 44#16), (.nvi, 50#16, 52#16), (.vi, 58#16, 60#16 + 2 * (0#8 ++ w.extractLsb' 0 8))] →
    psaFcw .amz8001 kind = fcw ∧ psaPc .amz8001 kind w = pc) ∧
  (∀ (w : Word) (kind : TrapKind) (fcw pc : Word), (kind, fcw, pc) ∈ [(TrapKind.privilegedInstruction, 8#16, 10#16), (.systemCall, 12#16, 14#16),
      (.nmi, 20#16, 22#16), (.nvi, 24#16, 26#16), (.vi, 28#16, 30#16 + 2 * (0#8 ++ w.extractLsb' 0 8))] →
    psaFcw .amz8002 kind = fcw ∧ psaPc .amz8002 kind w = pc)

/-- A halted machine that accepts no request takes a step that changes nothing but the list of coming requests. That waiting is a step is
the model's choice (log 28). With no accepted request and the machine running: an odd PC is refused by name; words that decode to nothing
are refused by the reason's name, unless the first word is that of a system instruction in normal mode; an instruction of which a byte was
stored by the last instruction is refused by name. In normal mode words that decode to nothing after the first word of a system instruction
are refused by name when a byte of that instruction was stored by the last instruction, and otherwise, when the system stack and the new
program status area are fit, enter the privileged-instruction handler with the PC that PRIV_TRAP_PC names. The checks are the spec's cases;
their order and when they are made is the model's choice (logs 12, 13). (R449, R512, R39, R91, R103, R111, R135, R505, R515, R517) -/
def Obligations.WaitingAndFetchStops : Prop :=
  (∀ s : State, s.halted = true → acceptedRequest s.presented s.fcw = none → step s = .next { s with requests := s.requests.tail }) ∧
  (∀ s : State, s.halted = false → acceptedRequest s.presented s.fcw = none →
    (s.pc.isEven = false → step s = .refused .oddPc) ∧
    (∀ e, s.pc.isEven = true → decode s.segmented s.fetchWords = .error e →
      (s.fcw.sn = true ∨ privilegedFirstWord (s.wordAt s.pc) = false) → step s = .refused (refusalOf e)) ∧
    (∀ i rest k, s.pc.isEven = true → decode s.segmented s.fetchWords = .ok (i, rest) → k < 2 * lengthOf i →
      s.key (s.pc.plus (BitVec.ofNat 16 k)) ∈ s.stores → step s = .refused .modifiesNextInstruction) ∧
    (∀ e, s.pc.isEven = true → decode s.segmented s.fetchWords = .error e → s.fcw.sn = false →
      privilegedFirstWord (s.wordAt s.pc) = true →
      (∀ k, k < 2 * s.privilegedWords → s.key (s.pc.plus (BitVec.ofNat 16 k)) ∈ s.stores → step s = .refused .modifiesNextInstruction) ∧
      ((∀ k, k < 2 * s.privilegedWords → s.key (s.pc.plus (BitVec.ofNat 16 k)) ∉ s.stores) →
        s.trapReady .privilegedInstruction (s.wordAt s.pc) = true →
        ∃ t, step s = .next t ∧ IsEntered s .privilegedInstruction (s.wordAt s.pc) (s.trapPc s.privilegedWords) t ∧
          t.requests = s.requests.tail)))

/-- From every state in which the PC is even, what the AMZ8002 does not have is 0 (SEG, the segment numbers of PC and NPSAP) and the memory
is in canonical form and lists existing addresses only, a step that answers a next state answers one with the same properties. (R35, R39,
R42, R60, R80) -/
def Obligations.StepKeepsInvariant : Prop :=
  ∀ s t : State, s.inv = true → step s = .next t → t.inv = true

/-- State.reset has the invariant of the machine, REFRESH.RE is 1, the machine is not halted, and the reset operation applied to it gives it
back. The FCW and the PC are 0 because the empty memory reads 0, and the part is an AMZ8002: both are the model's choices (logs 1, 2).
(R560, R563, R564) -/
def Obligations.ResetStateIsReset : Prop :=
  State.reset.inv = true ∧ State.reset.refresh.re = true ∧ State.reset.halted = false ∧ State.reset.applyReset = .ok State.reset

/-- AMZ8001: when the word at offset 2 of segment 0 has its reserved bits 0, Reset takes the FCW from it, and the PC from the words at
offsets 4 (bits 14 to 8) and 6; an odd offset is refused. AMZ8002: the FCW from the word at 0 and the PC from the word at 2; an odd value is
refused. An FCW word with a reserved bit is refused on both. RE becomes 1, the machine is not halted, and the general registers, the NPSAP
and the memory stay as they are, standing for the arbitrary values of the spec (log 6). (R560, R561, R562, R563) -/
def Obligations.ResetLoadsStatus : Prop :=
  (∀ u : State, u.cfg = Config.amz8001 → fcwReservedClear (u.wordAt ⟨0, 2⟩) = true →
    ((u.wordAt ⟨0, 6⟩).getLsbD 0 = false → ∃ t, u.applyReset = .ok t ∧ t.fcw.word = u.wordAt ⟨0, 2⟩ ∧
      t.pcSeg = (u.wordAt ⟨0, 4⟩).extractLsb' 8 7 ∧ t.pcOff = u.wordAt ⟨0, 6⟩ ∧ t.refresh = { u.refresh with re := true } ∧
      t.halted = false ∧ t.gr = u.gr ∧ t.mem = u.mem ∧ t.psapSeg = u.psapSeg ∧ t.psapOff = u.psapOff) ∧
    ((u.wordAt ⟨0, 6⟩).getLsbD 0 = true → u.applyReset = .error .oddPc)) ∧
  (∀ u : State, u.cfg = Config.amz8002 → fcwReservedClear (u.wordAt ⟨0, 0⟩) = true →
    ((u.wordAt ⟨0, 2⟩).getLsbD 0 = false → ∃ t, u.applyReset = .ok t ∧
      (∀ i, i < 15 → t.fcw.word.getLsbD i = (u.wordAt ⟨0, 0⟩).getLsbD i) ∧ t.fcw.seg = false ∧ t.pcOff = u.wordAt ⟨0, 2⟩ ∧
      t.refresh = { u.refresh with re := true } ∧ t.halted = false ∧ t.gr = u.gr ∧ t.mem = u.mem ∧ t.psapOff = u.psapOff) ∧
    ((u.wordAt ⟨0, 2⟩).getLsbD 0 = true → u.applyReset = .error .oddPc)) ∧
  (∀ u : State, (u.cfg = Config.amz8001 ∧ fcwReservedClear (u.wordAt ⟨0, 2⟩) = false ∨
      u.cfg = Config.amz8002 ∧ fcwReservedClear (u.wordAt ⟨0, 0⟩) = false) → u.applyReset = .error .reservedFcwBit)

/-! ### Frames -/

/-- For every instruction: when it answers a next state, every physical register outside the list changedRegs is unchanged. That list holds
the destination register or registers, the stack pointer of PUSH, POP, CALL, CALR and RET, the stepped address registers and the count
register of the block instructions, RH1's register for the translate-and-test instructions, both registers of EX, RLDB and RRDB, the system
stack pointer for traps and IRET, and Rn14 or Rn15 for the writes of NSPSEG and NSPOFF. A byte destination stands for its half of the word
register only: when the instruction answers a next state, every half of a physical register outside the list changedHalves is unchanged, so
a byte form leaves the other byte of its word register alone; the list holds both halves of a word destination, the low half for an RL and
the high half for an RH. (R22, R23, R29, R30, R32, R201, R515, R452) -/
def Obligations.RegisterFrame : Prop :=
  (∀ (i : Instr) (s t : State), exec i s = .next t → ∀ j : Fin 18, j ∉ changedRegs i s → t.gr[j] = s.gr[j]) ∧
  (∀ (i : Instr) (s t : State), exec i s = .next t → ∀ (j : Fin 18) (low : Bool), (j, low) ∉ changedHalves i s →
    t.halfReg j low = s.halfReg j low)

/-- For every instruction: when it answers a next state, every byte whose address is not among the bytes stored reads as before. The bytes
stored are computed by the effective address of the destination in the state before (the stack slot below the stack pointer for PUSH, CALL
and CALR, the frame for a trap, the address register's bytes for the block forms), as many as the operand has; there are none for a register
destination and for an instruction that stores nothing. The note of stores that the next fetch looks at gains exactly those bytes; the note
is the model's choice (log 12). (R80, R88, R92, R103, R515) -/
def Obligations.MemoryFrame : Prop :=
  (∀ (i : Instr) (s t : State), exec i s = .next t → ∀ a : Address, s.key a ∉ storedKeys i s → t.readByte a = s.readByte a) ∧
  (∀ (i : Instr) (s t : State), exec i s = .next t → ∀ k : Nat, k ∈ t.stores ↔ k ∈ s.stores ∨ k ∈ storedKeys i s)

/-- For every instruction: when it answers a next state, every field of the FCW (five control bits, six flags) outside the list that its
rule's Flags line names (for the translate-and-test instructions also C and S, log 16) is unchanged. A trap, IRET, LDPS and a write of FCW
may change all of them, DI and EI the enables they name, the flag instructions the flags they name. (R51, R59, R515) -/
def Obligations.FcwFrame : Prop :=
  ∀ (i : Instr) (s t : State), exec i s = .next t → ∀ b : FcwBit, b ∉ changedBits i s → t.fcw.bit b = s.fcw.bit b

/-- For every instruction that answers a next state: the parameters and the coming requests never change; the halves of NPSAP and the
refresh counter change only by their LDCTL writes that do not trap; halted only by HALT and by traps; the list of events only by the I/O
instructions and MREQ, MRES and MSET that do not trap; the port answers only by the inputs that do not trap; MO only by MREQ, MRES and MSET
that do not trap; events are only ever added; the PC's segment only by traps and by CALL, JP, RET, IRET and LDPS; its offset beyond the
words of the instruction only by these, by CALR, JR, DJNZ and DBJNZ, and by the repeating block forms, which go back to themselves and mark
that they do; nothing else sets that mark. That port reads are events and the mark are the model's choices (logs 9, 12). (R36, R37, R62,
R68, R71, R371, R412, R449, R455, R516) -/
def Obligations.SpecialStateFrame : Prop :=
  ∀ (i : Instr) (s t : State), exec i s = .next t →
    t.cfg = s.cfg ∧ t.requests = s.requests ∧
    (traps i s = true ∨ (∀ r, i ≠ .ldctlWrite .psapseg r) → t.psapSeg = s.psapSeg) ∧
    (traps i s = true ∨ (∀ r, i ≠ .ldctlWrite .psapoff r) → t.psapOff = s.psapOff) ∧
    (traps i s = true ∨ (∀ r, i ≠ .ldctlWrite .refresh r) → t.refresh = s.refresh) ∧
    (traps i s = true → t.halted = false) ∧
    (traps i s = false → i ≠ .halt → t.halted = s.halted) ∧
    (traps i s = true ∨ (readsPort i = false ∧ writesPort i = false ∧ writesLine i = false) → t.events = s.events) ∧
    (∃ es, t.events = s.events ++ es) ∧
    (traps i s = true ∨ readsPort i = false → t.portAnswers = s.portAnswers) ∧
    (traps i s = true ∨ writesLine i = false → t.multiMicroOut = s.multiMicroOut) ∧
    (traps i s = false → changesPcSeg i = false → t.pcSeg = s.pcSeg) ∧
    (traps i s = false → changesPcOff i = false → t.pcOff = s.pcOff) ∧
    (traps i s = true ∨ repeats i = false → t.repeating = s.repeating) ∧
    (traps i s = false → repeats i = true → t.repeating = (s.repeating || decide (t.pcOff ≠ s.pcOff)))

/-- For every instruction executed in normal mode that does not trap and answers a next state: the mode, the segmentation, the stop enable
and the interrupt enables, the system stack pointer, the NPSAP, the refresh counter, halted, MO and the events are unchanged. (R47, R59,
R504, R530, R531) -/
def Obligations.NormalModeKeepsControl : Prop :=
  ∀ (i : Instr) (s t : State), s.fcw.sn = false → traps i s = false → exec i s = .next t →
    t.fcw.sn = false ∧ t.fcw.seg = s.fcw.seg ∧ t.fcw.se = s.fcw.se ∧ t.fcw.vie = s.fcw.vie ∧ t.fcw.nvie = s.fcw.nvie ∧
    t.rs14 = s.rs14 ∧ t.rs15 = s.rs15 ∧ t.psapSeg = s.psapSeg ∧ t.psapOff = s.psapOff ∧ t.refresh = s.refresh ∧
    t.halted = s.halted ∧ t.multiMicroOut = s.multiMicroOut ∧ t.events = s.events

/-! ### Traps -/

/-- For every state whose system stack and new program status area are fit, SC answers the state that trap entry leaves: the identifier
pushed is the SC word 0x7Fnn, the PC saved is that of the next instruction, the old FCW is saved, and the new status is the system call
entry's. Every byte of memory outside the frame, every other register and NPSAP, REFRESH, MO, the events, the port answers and the coming
requests are unchanged. (R309, R502, R506, R515, R517, R520, R521) -/
def Obligations.SystemCallTraps : Prop :=
  ∀ (s : State) (n : BitVec 8), s.trapReady .systemCall (0x7F#8 ++ n) = true →
    ∃ t, exec (.sc n) s = .next t ∧ IsEntered s .systemCall (0x7F#8 ++ n) s.pcOff t ∧ t.requests = s.requests

/-- For every system instruction executed in normal mode in a state whose system stack and new program status area are fit, the next state
is the one that the privileged-instruction trap leaves, with the first word of the instruction as identifier; the PC saved follows the
parameter PRIV_TRAP_PC. Every byte of memory outside the frame, every register but the system stack pointer, and NPSAP, REFRESH, MO, the
events, the port answers and the coming requests are unchanged. (R47, R503, R504, R505, R515, R516, R517, R520, R521) -/
def Obligations.SystemInstructionsTrapInNormalMode : Prop :=
  ∀ (i : Instr) (s : State), isSystem i = true → s.fcw.sn = false → s.trapReady .privilegedInstruction (firstWord i) = true →
    ∃ t, exec i s = .next t ∧ IsEntered s .privilegedInstruction (firstWord i)
      (match s.cfg.privTrapPc with
        | .firstWordPlus2 => s.pcOff - 2 * BitVec.ofNat 16 (lengthOf i) + 2
        | .nextInstruction => s.pcOff) t ∧ t.requests = s.requests

/-- When trap entry answers a state in which the handler runs in system mode (segmented on the AMZ8001), IRET executed in it answers a state
with the FCW, the PC and every register of the interrupted program, for every kind of event, identifier and even saved PC. (R305, R515,
R525) -/
def Obligations.ReturnUndoesTrapEntry : Prop :=
  ∀ (s t : State) (kind : TrapKind) (w off : Word), s.mem.wf = true → off.getLsbD 0 = false → s.trapEntry kind w off = .ok t →
    t.fcw.sn = true → (s.cfg.variant = .amz8001 → t.fcw.seg = true) →
    ∃ u, exec .iret t = .next u ∧ u.fcw = s.fcw ∧ u.pcSeg = s.pcSeg ∧ u.pcOff = off ∧ u.gr = s.gr

/-- In system mode, when the system stack pointer is even, the saved FCW word has its reserved bits 0 and the saved PC is even:
non-segmented, IRET takes the FCW from the second word and the PC from the third and moves the stack pointer by 6; segmented, the FCW from
the second word, the PC from the third (bits 14 to 8) and fourth, and moves it by 8. (R305, R440) -/
def Obligations.ReturnFromInterrupt : Prop :=
  (∀ s : State, s.fcw.sn = true → s.segmented = false →
    s.rs15.getLsbD 0 = false → fcwReservedClear (s.wordAt ⟨s.pcSeg, s.rs15 + 2⟩) = true →
    (s.wordAt ⟨s.pcSeg, s.rs15 + 4⟩).getLsbD 0 = false →
    ∃ t, exec .iret s = .next t ∧ IsStatus s.cfg.variant s.fcw t.fcw (s.wordAt ⟨s.pcSeg, s.rs15 + 2⟩) ∧
      t.pcSeg = s.pcSeg ∧ t.pcOff = s.wordAt ⟨s.pcSeg, s.rs15 + 4⟩ ∧ t.rs15 = s.rs15 + 6) ∧
  (∀ s : State, s.fcw.sn = true → s.segmented = true →
    s.rs15.getLsbD 0 = false → fcwReservedClear (s.wordAt ⟨segOf s.rs14, s.rs15 + 2⟩) = true →
    (s.wordAt ⟨segOf s.rs14, s.rs15 + 6⟩).getLsbD 0 = false →
    ∃ t, exec .iret s = .next t ∧ IsStatus s.cfg.variant s.fcw t.fcw (s.wordAt ⟨segOf s.rs14, s.rs15 + 2⟩) ∧
      t.pcSeg = segOf (s.wordAt ⟨segOf s.rs14, s.rs15 + 4⟩) ∧ t.pcOff = s.wordAt ⟨segOf s.rs14, s.rs15 + 6⟩ ∧
      t.rs15 = s.rs15 + 8)

/-! ### Registers, memory and operands -/

/-- R14 is Rs14 in system mode on the AMZ8001 and Rn14 otherwise; R15 is Rs15 in system mode and Rn15 otherwise; R0 to R13 are single
registers; RR14 and RQ12 are made of the registers so selected. (R30) -/
def Obligations.RegisterBanks : Prop :=
  ∀ s : State,
    s.reg 14 = (if s.fcw.sn = true ∧ s.cfg.variant = .amz8001 then s.rs14 else s.rn14) ∧
    s.reg 15 = (if s.fcw.sn = true then s.rs15 else s.rn15) ∧
    (∀ n : Fin 14, s.reg (BitVec.ofNat 4 n) = s.gr[(n : Nat)]) ∧
    s.rr 14 = s.reg 14 ++ s.reg 15 ∧ s.rq 12 = s.reg 12 ++ s.reg 13 ++ s.reg 14 ++ s.reg 15

/-- A byte register reads back what is written to it, and a write of it changes no other byte register (so only its half of the word); RL is
bits 7 to 0 and RH bits 15 to 8 of the word register with the same number. A pair reads back what is written and holds the high half in the
even register. A quadruple reads back what is written, the most significant word first. (R22, R23, R24, R25, R28) -/
def Obligations.RegisterViews : Prop :=
  (∀ (s : State) (c e : RegCode) (v : Byte), (s.setRb c v).rb e = if e = c then v else s.rb e) ∧
  (∀ (s : State) (c : RegCode), s.rb c = if c.getLsbD 3 then (s.reg (c - 8)).extractLsb' 0 8 else (s.reg c).extractLsb' 8 8) ∧
  (∀ c : RegCode, byteHome c = if c.getLsbD 3 then c - 8 else c) ∧
  (∀ (s : State) (n : RegCode) (v : Long), (s.setRr n v).rr n = v ∧ (s.setRr n v).reg n = v.extractLsb' 16 16 ∧
    (s.setRr n v).reg (n + 1) = v.extractLsb' 0 16) ∧
  (∀ (s : State) (n : RegCode) (v : Quad), (s.setRq n v).rq n = v ∧ (s.setRq n v).reg n = v.extractLsb' 48 16 ∧
    (s.setRq n v).reg (n + 1) = v.extractLsb' 32 16 ∧ (s.setRq n v).reg (n + 2) = v.extractLsb' 16 16 ∧
    (s.setRq n v).reg (n + 3) = v.extractLsb' 0 16)

/-- On a memory in canonical form a store of a word or a long word at an even address succeeds, each byte then reads as R88 places it (the
offset wraps at 0xFFFF inside the segment), the whole reads back, and every other byte is unchanged. At an odd address word and long-word
reads and writes are refused by name, whereas a byte may be at any address. The byte address that segment and offset name is the 23-bit
number of both on the AMZ8001, so that two segments share no byte, and the 16-bit offset alone on the AMZ8002. A word is read as the byte at
its address and the next, a long word as the word at its address and the next. (R80, R81, R86, R87, R88, R90, R92) -/
def Obligations.MemoryIsBigEndian : Prop :=
  (∀ (s : State) (a : Address) (v : Word), s.mem.wf = true → a.isEven = true → ∃ t, s.writeWord a v = .ok t ∧
    t.readByte a = v.extractLsb' 8 8 ∧ t.readByte ⟨a.seg, a.off + 1⟩ = v.extractLsb' 0 8 ∧ t.readWord a = .ok v ∧
    ∀ b, s.key b ≠ s.key a → s.key b ≠ s.key ⟨a.seg, a.off + 1⟩ → t.readByte b = s.readByte b) ∧
  (∀ (s : State) (a : Address) (v : Long), s.mem.wf = true → a.isEven = true → ∃ t, s.writeLong a v = .ok t ∧
    t.readByte a = v.extractLsb' 24 8 ∧ t.readByte ⟨a.seg, a.off + 1⟩ = v.extractLsb' 16 8 ∧
    t.readByte ⟨a.seg, a.off + 2⟩ = v.extractLsb' 8 8 ∧ t.readByte ⟨a.seg, a.off + 3⟩ = v.extractLsb' 0 8 ∧
    t.readLong a = .ok v ∧
    ∀ b, (∀ k, k < 4 → s.key b ≠ s.key ⟨a.seg, a.off + BitVec.ofNat 16 k⟩) → t.readByte b = s.readByte b) ∧
  (∀ (s : State) (a : Address) (v : Byte), s.mem.wf = true → (s.writeByte a v).readByte a = v) ∧
  (∀ (s : State) (a : Address) (v : Word) (w : Long), a.isEven = false → s.readWord a = .error .misaligned ∧
    s.readLong a = .error .misaligned ∧ s.writeWord a v = .error .misaligned ∧ s.writeLong a w = .error .misaligned) ∧
  (∀ (s : State) (a : Address), s.cfg.variant = .amz8001 → s.key a = a.seg.toNat * 2 ^ 16 + a.off.toNat) ∧
  (∀ (s : State) (a : Address), s.cfg.variant = .amz8002 → s.key a = a.off.toNat) ∧
  (∀ (s : State) (a : Address), s.wordAt a = s.readByte a ++ s.readByte ⟨a.seg, a.off + 1⟩ ∧
    s.longAt a = s.wordAt a ++ s.wordAt ⟨a.seg, a.off + 2⟩ ∧
    (a.isEven = true → s.readWord a = .ok (s.wordAt a) ∧ s.readLong a = .ok (s.longAt a)))

/-- Non-segmented: IR is the register, DA the address word, X the address word plus the index register, BA the base plus the displacement,
BX the base plus the index register, RA the PC plus the displacement, all modulo 2^16 in the segment of the PC. Segmented: the segment comes
from bits 14 to 8 of the even register of the pair or from the instruction, and only the offset is added to (R150, R155, R156, R163, R164);
this is so exactly when the part is an AMZ8001 and SEG is 1. LDA computes in DA, X, BA and BX what a load computes. An address register is
one register, which is stepped, or, segmented, an even pair of which the odd register is stepped; an odd code is refused. A source in R mode
is the register of the code in the width of the operand (byte, word, or long word with an even code, an odd one being refused), an immediate
source is itself, a source in memory is what stands at the effective address in that width; a word or long word at an odd address is
refused. (R152, R153, R154, R158, R160, R162, R168, R172, R175, R178, R209, R370) -/
def Obligations.EffectiveAddresses : Prop :=
  (∀ (s : State) (r x : RegCode) (w disp : Word), s.segmented = false →
    s.ea (.ir r) = .ok ⟨s.pcSeg, s.reg r⟩ ∧ s.ea (.da (.plain w)) = .ok ⟨s.pcSeg, w⟩ ∧
    s.ea (.x (.plain w) x) = .ok ⟨s.pcSeg, w + s.reg x⟩ ∧ s.eaLd (.ba r disp) = .ok ⟨s.pcSeg, s.reg r + disp⟩ ∧
    s.eaLd (.bx r x) = .ok ⟨s.pcSeg, s.reg r + s.reg x⟩ ∧ s.eaRa disp = ⟨s.pcSeg, s.pcOff + disp⟩) ∧
  (∀ (s : State) (r x : RegCode) (g : SegNum) (o : BitVec 8) (w disp : Word), s.segmented = true → r.getLsbD 0 = false →
    s.ea (.ir r) = .ok ⟨(s.reg r).extractLsb' 8 7, s.reg (r + 1)⟩ ∧
    s.ea (.da (.short g o)) = .ok ⟨g, 0#8 ++ o⟩ ∧ s.ea (.da (.long g w)) = .ok ⟨g, w⟩ ∧
    s.ea (.x (.short g o) x) = .ok ⟨g, (0#8 ++ o) + s.reg x⟩ ∧ s.ea (.x (.long g w) x) = .ok ⟨g, w + s.reg x⟩ ∧
    s.eaLd (.ba r disp) = .ok ⟨(s.reg r).extractLsb' 8 7, s.reg (r + 1) + disp⟩ ∧
    s.eaLd (.bx r x) = .ok ⟨(s.reg r).extractLsb' 8 7, s.reg (r + 1) + s.reg x⟩ ∧
    s.eaRa disp = ⟨s.pcSeg, s.pcOff + disp⟩) ∧
  (∀ (s : State) (r x : RegCode) (w disp : Word), s.segmented = false →
    s.eaLda (.da (.plain w)) = .ok ⟨s.pcSeg, w⟩ ∧ s.eaLda (.x (.plain w) x) = .ok ⟨s.pcSeg, w + s.reg x⟩ ∧
    s.eaLda (.ba r disp) = .ok ⟨s.pcSeg, s.reg r + disp⟩ ∧ s.eaLda (.bx r x) = .ok ⟨s.pcSeg, s.reg r + s.reg x⟩) ∧
  (∀ (s : State) (r x : RegCode) (g : SegNum) (o : BitVec 8) (w disp : Word), s.segmented = true → r.getLsbD 0 = false →
    s.eaLda (.da (.short g o)) = .ok ⟨g, 0#8 ++ o⟩ ∧ s.eaLda (.da (.long g w)) = .ok ⟨g, w⟩ ∧
    s.eaLda (.x (.short g o) x) = .ok ⟨g, (0#8 ++ o) + s.reg x⟩ ∧ s.eaLda (.x (.long g w) x) = .ok ⟨g, w + s.reg x⟩ ∧
    s.eaLda (.ba r disp) = .ok ⟨(s.reg r).extractLsb' 8 7, s.reg (r + 1) + disp⟩ ∧
    s.eaLda (.bx r x) = .ok ⟨(s.reg r).extractLsb' 8 7, s.reg (r + 1) + s.reg x⟩) ∧
  (∀ s : State, s.segmented = true ↔ s.cfg.variant = .amz8001 ∧ s.fcw.seg = true) ∧
  (∀ (s : State) (m : MemOp), s.eaLd (.mem m) = s.ea m) ∧
  (∀ (s : State) (n : RegCode), s.segmented = false →
    s.addrReg n = .ok ⟨s.pcSeg, s.reg n⟩ ∧ s.offReg n = n ∧ s.addrRegs n = [n]) ∧
  (∀ (s : State) (n : RegCode), s.segmented = true → s.offReg n = n + 1 ∧ s.addrRegs n = [n, n + 1] ∧
    (n.getLsbD 0 = false → s.addrReg n = .ok ⟨(s.reg n).extractLsb' 8 7, s.reg (n + 1)⟩) ∧
    (n.getLsbD 0 = true → s.addrReg n = .error .badRegisterCode)) ∧
  (∀ (s : State) (c : RegCode) (v : Byte), readSrc byteWidth s (.reg c) = .ok (s.rb c) ∧ readSrc byteWidth s (.imm v) = .ok v ∧
    readLdSrc byteWidth s (.reg c) = .ok (s.rb c) ∧ readLdSrc byteWidth s (.imm v) = .ok v ∧ readRegMem byteWidth s (.reg c) = .ok (s.rb c)) ∧
  (∀ (s : State) (n : RegCode) (v : Word), readSrc wordWidth s (.reg n) = .ok (s.reg n) ∧ readSrc wordWidth s (.imm v) = .ok v ∧
    readLdSrc wordWidth s (.reg n) = .ok (s.reg n) ∧ readLdSrc wordWidth s (.imm v) = .ok v ∧ readRegMem wordWidth s (.reg n) = .ok (s.reg n)) ∧
  (∀ (s : State) (n : RegCode) (v : Long), readSrc longWidth s (.imm v) = .ok v ∧ readLdSrc longWidth s (.imm v) = .ok v ∧
    (n.getLsbD 0 = false → readSrc longWidth s (.reg n) = .ok (s.reg n ++ s.reg (n + 1)) ∧
      readLdSrc longWidth s (.reg n) = .ok (s.reg n ++ s.reg (n + 1)) ∧ readRegMem longWidth s (.reg n) = .ok (s.reg n ++ s.reg (n + 1))) ∧
    (n.getLsbD 0 = true → readSrc longWidth s (.reg n) = .error .badRegisterCode ∧ readLdSrc longWidth s (.reg n) = .error .badRegisterCode ∧
      readRegMem longWidth s (.reg n) = .error .badRegisterCode)) ∧
  (∀ (s : State) (m : MemOp) (a : Address), s.ea m = .ok a →
    readSrc byteWidth s (.mem m) = .ok (s.readByte a) ∧ readRegMem byteWidth s (.mem m) = .ok (s.readByte a) ∧
    (a.isEven = true → readSrc wordWidth s (.mem m) = .ok (s.wordAt a) ∧ readRegMem wordWidth s (.mem m) = .ok (s.wordAt a) ∧
      readSrc longWidth s (.mem m) = .ok (s.longAt a) ∧ readRegMem longWidth s (.mem m) = .ok (s.longAt a)) ∧
    (a.isEven = false → readSrc wordWidth s (.mem m) = .error .misaligned ∧ readRegMem wordWidth s (.mem m) = .error .misaligned ∧
      readSrc longWidth s (.mem m) = .error .misaligned ∧ readRegMem longWidth s (.mem m) = .error .misaligned)) ∧
  (∀ (s : State) (m : LdMem) (a : Address), s.eaLd m = .ok a →
    readLdSrc byteWidth s (.mem m) = .ok (s.readByte a) ∧
    (a.isEven = true → readLdSrc wordWidth s (.mem m) = .ok (s.wordAt a) ∧ readLdSrc longWidth s (.mem m) = .ok (s.longAt a)) ∧
    (a.isEven = false → readLdSrc wordWidth s (.mem m) = .error .misaligned ∧ readLdSrc longWidth s (.mem m) = .error .misaligned))

/-- FCWword has SEG, N/S, SE, VIE, NVIE in bits 15 to 11, C, Z, S, P/V, DA, H in bits 7 to 2 and 0 elsewhere; FLAGSbyte is its low byte.
LoadFCW of a word with a reserved bit is refused; otherwise it takes every field from its bit, SEG only on the AMZ8001, and changes nothing
else. LoadFLAGS does the same with the six flags. (R440) -/
def Obligations.FcwWordRules : Prop :=
  (∀ f : Fcw, f.word = BitVec.ofBool f.seg ++ BitVec.ofBool f.sn ++ BitVec.ofBool f.se ++ BitVec.ofBool f.vie ++ BitVec.ofBool f.nvie ++
    0#3 ++ BitVec.ofBool f.c ++ BitVec.ofBool f.z ++ BitVec.ofBool f.s ++ BitVec.ofBool f.pv ++ BitVec.ofBool f.da ++ BitVec.ofBool f.h ++ 0#2) ∧
  (∀ f : Fcw, f.flags = f.word.extractLsb' 0 8) ∧
  (∀ (s : State) (w : Word), (w.extractLsb' 8 3 ≠ 0 ∨ w.extractLsb' 0 2 ≠ 0) → s.loadFcw w = .error .reservedFcwBit) ∧
  (∀ (s : State) (w : Word), w.extractLsb' 8 3 = 0 → w.extractLsb' 0 2 = 0 → s.loadFcw w = .ok { s with fcw :=
    { seg := if s.cfg.variant = .amz8001 then w.getLsbD 15 else s.fcw.seg, sn := w.getLsbD 14, se := w.getLsbD 13, vie := w.getLsbD 12,
      nvie := w.getLsbD 11, c := w.getLsbD 7, z := w.getLsbD 6, s := w.getLsbD 5, pv := w.getLsbD 4, da := w.getLsbD 3, h := w.getLsbD 2 } }) ∧
  (∀ (s : State) (b : Byte), b.extractLsb' 0 2 ≠ 0 → s.loadFlags b = .error .reservedFcwBit) ∧
  (∀ (s : State) (b : Byte), b.extractLsb' 0 2 = 0 → s.loadFlags b = .ok { s with fcw :=
    { s.fcw with c := b.getLsbD 7, z := b.getLsbD 6, s := b.getLsbD 5, pv := b.getLsbD 4, da := b.getLsbD 3, h := b.getLsbD 2 } })

/-! ### Load and exchange -/

/-- For every source form that can be read, LD, LDB and LDL leave the value in the register; the compact LDB its immediate; LDK the
zero-extended constant; LDR, LDRB and LDRL the memory operand at PC plus displacement. A word or long operand in memory is at an even
address, a pair code is even. Non-segmented, LDA and LDAR leave the offset of the effective address in the register. Segmented, they leave
the segment number in bits 14 to 8 of the even register of the pair and the offset in the odd one; the other bits of the even register are
left open. (R203, R204, R211, R214, R209, R210) -/
def Obligations.LoadsPutTheOperand : Prop :=
  (∀ (s : State) (d : RegCode) (src : LdSrc 16) (v : Word), readLdSrc wordWidth s src = .ok v → ∃ t, exec (.ld d src) s = .next t ∧ t.reg d = v) ∧
  (∀ (s : State) (d : RegCode) (src : LdSrc 8) (v : Byte), readLdSrc byteWidth s src = .ok v → ∃ t, exec (.ldb d src) s = .next t ∧ t.rb d = v) ∧
  (∀ (s : State) (d : RegCode) (src : LdSrc 32) (v : Long), d.getLsbD 0 = false → readLdSrc longWidth s src = .ok v →
    ∃ t, exec (.ldl d src) s = .next t ∧ t.rr d = v) ∧
  (∀ (s : State) (d : RegCode) (v : Byte), ∃ t, exec (.ldbk d v) s = .next t ∧ t.rb d = v) ∧
  (∀ (s : State) (d : RegCode) (n : BitVec 4), ∃ t, exec (.ldk d n) s = .next t ∧ t.reg d = 0#12 ++ n) ∧
  (∀ (s : State) (d : RegCode) (disp : Word), (s.pcOff + disp).getLsbD 0 = false →
    ∃ t, exec (.ldr d disp) s = .next t ∧ t.reg d = s.wordAt ⟨s.pcSeg, s.pcOff + disp⟩) ∧
  (∀ (s : State) (d : RegCode) (disp : Word), ∃ t, exec (.ldrb d disp) s = .next t ∧ t.rb d = s.readByte ⟨s.pcSeg, s.pcOff + disp⟩) ∧
  (∀ (s : State) (d : RegCode) (disp : Word), d.getLsbD 0 = false → (s.pcOff + disp).getLsbD 0 = false →
    ∃ t, exec (.ldrl d disp) s = .next t ∧ t.rr d = s.longAt ⟨s.pcSeg, s.pcOff + disp⟩) ∧
  (∀ (s : State) (d : RegCode) (src : LdaSrc) (a : Address), s.segmented = false → s.eaLda src = .ok a →
    ∃ t, exec (.lda d src) s = .next t ∧ t.reg d = a.off) ∧
  (∀ (s : State) (d : RegCode) (src : LdaSrc) (a : Address), s.segmented = true → d.getLsbD 0 = false → s.eaLda src = .ok a →
    ∃ t, exec (.lda d src) s = .next t ∧ (t.reg d).extractLsb' 8 7 = a.seg ∧ t.reg (d + 1) = a.off) ∧
  (∀ (s : State) (d : RegCode) (disp : Word), s.segmented = false →
    ∃ t, exec (.ldar d disp) s = .next t ∧ t.reg d = s.pcOff + disp) ∧
  (∀ (s : State) (d : RegCode) (disp : Word), s.segmented = true → d.getLsbD 0 = false →
    ∃ t, exec (.ldar d disp) s = .next t ∧ (t.reg d).extractLsb' 8 7 = s.pcSeg ∧ t.reg (d + 1) = s.pcOff + disp)

/-- On a memory in canonical form, for every destination form whose effective address exists (even for words and long words), the stores of
LD, LDB, LDL, the memory-immediate forms and the relative stores of LDR leave the operand at that address. (R205, R206, R214) -/
def Obligations.StoresPutTheRegister : Prop :=
  (∀ (s : State) (dst : LdMem) (r : RegCode) (a : Address), s.mem.wf = true → s.eaLd dst = .ok a → a.isEven = true →
    ∃ t, exec (.ldStore dst r) s = .next t ∧ t.wordAt a = s.reg r) ∧
  (∀ (s : State) (dst : LdMem) (r : RegCode) (a : Address), s.mem.wf = true → s.eaLd dst = .ok a →
    ∃ t, exec (.ldbStore dst r) s = .next t ∧ t.readByte a = s.rb r) ∧
  (∀ (s : State) (dst : LdMem) (r : RegCode) (a : Address), s.mem.wf = true → s.eaLd dst = .ok a → a.isEven = true → r.getLsbD 0 = false →
    ∃ t, exec (.ldlStore dst r) s = .next t ∧ t.longAt a = s.rr r) ∧
  (∀ (s : State) (dst : MemOp) (v : Word) (a : Address), s.mem.wf = true → s.ea dst = .ok a → a.isEven = true →
    ∃ t, exec (.ldStoreImm dst v) s = .next t ∧ t.wordAt a = v) ∧
  (∀ (s : State) (dst : MemOp) (v : Byte) (a : Address), s.mem.wf = true → s.ea dst = .ok a →
    ∃ t, exec (.ldbStoreImm dst v) s = .next t ∧ t.readByte a = v) ∧
  (∀ (s : State) (disp : Word) (r : RegCode), s.mem.wf = true → (s.pcOff + disp).getLsbD 0 = false →
    ∃ t, exec (.ldrStore disp r) s = .next t ∧ t.wordAt ⟨s.pcSeg, s.pcOff + disp⟩ = s.reg r) ∧
  (∀ (s : State) (disp : Word) (r : RegCode), s.mem.wf = true →
    ∃ t, exec (.ldrbStore disp r) s = .next t ∧ t.readByte ⟨s.pcSeg, s.pcOff + disp⟩ = s.rb r) ∧
  (∀ (s : State) (disp : Word) (r : RegCode), s.mem.wf = true → (s.pcOff + disp).getLsbD 0 = false → r.getLsbD 0 = false →
    ∃ t, exec (.ldrlStore disp r) s = .next t ∧ t.longAt ⟨s.pcSeg, s.pcOff + disp⟩ = s.rr r)

/-- On a memory in canonical form: CLR and CLRB leave 0 in every operand that can be read; EX and EXB leave in the register what the other
operand held and in the other operand, register or memory, what the register held. (R201, R202) -/
def Obligations.ClearAndExchange : Prop :=
  (∀ (s : State) (dst : RegMem) (v : Word), s.mem.wf = true → readRegMem wordWidth s dst = .ok v →
    ∃ t, exec (.clr dst) s = .next t ∧ readRegMem wordWidth t dst = .ok 0) ∧
  (∀ (s : State) (dst : RegMem) (v : Byte), s.mem.wf = true → readRegMem byteWidth s dst = .ok v →
    ∃ t, exec (.clrb dst) s = .next t ∧ readRegMem byteWidth t dst = .ok 0) ∧
  (∀ (s : State) (d r : RegCode), ∃ t, exec (.ex d (.reg r)) s = .next t ∧ t.reg d = s.reg r ∧ t.reg r = s.reg d) ∧
  (∀ (s : State) (d r : RegCode), ∃ t, exec (.exb d (.reg r)) s = .next t ∧ t.rb d = s.rb r ∧ t.rb r = s.rb d) ∧
  (∀ (s : State) (d : RegCode) (m : MemOp) (a : Address), s.mem.wf = true → s.ea m = .ok a → a.isEven = true →
    ∃ t, exec (.ex d (.mem m)) s = .next t ∧ t.reg d = s.wordAt a ∧ t.wordAt a = s.reg d) ∧
  (∀ (s : State) (d : RegCode) (m : MemOp) (a : Address), s.mem.wf = true → s.ea m = .ok a →
    ∃ t, exec (.exb d (.mem m)) s = .next t ∧ t.rb d = s.readByte a ∧ t.readByte a = s.rb d)

/-- For an even effective address computed before any register is loaded: LDM from memory leaves the k-th word in register (d + k) mod 16
for every k below the count; LDM to memory, on a memory in canonical form, leaves register (r + k) mod 16 in the k-th word. (R212, R213) -/
def Obligations.LoadMultipleMovesEachWord : Prop :=
  (∀ (s : State) (d : RegCode) (src : MemOp) (n : BitVec 4) (a : Address), s.ea src = .ok a → a.isEven = true →
    ∃ t, exec (.ldmLoad d src n) s = .next t ∧
      ∀ k, k ≤ n.toNat → t.reg (d + BitVec.ofNat 4 k) = s.wordAt ⟨a.seg, a.off + BitVec.ofNat 16 (2 * k)⟩) ∧
  (∀ (s : State) (dst : MemOp) (r : RegCode) (n : BitVec 4) (a : Address), s.mem.wf = true → s.ea dst = .ok a → a.isEven = true →
    ∃ t, exec (.ldmStore dst r n) s = .next t ∧
      ∀ k, k ≤ n.toNat → t.wordAt ⟨a.seg, a.off + BitVec.ofNat 16 (2 * k)⟩ = s.reg (r + BitVec.ofNat 4 k))

/-- For a stack pointer at an even address that the other operand neither is nor uses: PUSH and PUSHL leave the source value below the old
stack pointer and move its offset down by 2 or 4 (memory in canonical form); POP and POPL leave the value on the stack in the destination,
register or memory, and move the offset up by 2 or 4. When the other operand of PUSH, PUSHL, POP or POPL is a register of the stack pointer
or is addressed by one, the instruction is refused by name. The registers an operand is or uses are the register itself (both of the pair
for a long word), the address register or pair of IR, none in DA, the index register of X (log 35). (R216, R217, R218) -/
def Obligations.PushAndPop : Prop :=
  (∀ (s : State) (sp : RegCode) (src : RegMem) (a : Address) (v : Word), s.mem.wf = true →
    overlap (s.addrRegs sp) (s.operandRegs false src) = false → s.addrReg sp = .ok a → a.isEven = true → readRegMem wordWidth s src = .ok v →
    ∃ t, exec (.push sp src) s = .next t ∧ t.wordAt ⟨a.seg, a.off - 2⟩ = v ∧ t.reg (s.offReg sp) = a.off - 2) ∧
  (∀ (s : State) (sp : RegCode) (src : RegMem) (a : Address) (v : Long), s.mem.wf = true →
    overlap (s.addrRegs sp) (s.operandRegs true src) = false → s.addrReg sp = .ok a → a.isEven = true → readRegMem longWidth s src = .ok v →
    ∃ t, exec (.pushl sp src) s = .next t ∧ t.longAt ⟨a.seg, a.off - 4⟩ = v ∧ t.reg (s.offReg sp) = a.off - 4) ∧
  (∀ (s : State) (sp : RegCode) (v : Word) (a : Address), s.mem.wf = true → s.addrReg sp = .ok a → a.isEven = true →
    ∃ t, exec (.pushImm sp v) s = .next t ∧ t.wordAt ⟨a.seg, a.off - 2⟩ = v ∧ t.reg (s.offReg sp) = a.off - 2) ∧
  (∀ (s : State) (sp r : RegCode) (a : Address), overlap (s.addrRegs sp) [r] = false → s.addrReg sp = .ok a → a.isEven = true →
    ∃ t, exec (.pop (.reg r) sp) s = .next t ∧ t.reg r = s.wordAt a ∧ t.reg (s.offReg sp) = a.off + 2) ∧
  (∀ (s : State) (sp r : RegCode) (a : Address), overlap (s.addrRegs sp) [r, r + 1] = false → r.getLsbD 0 = false →
    s.addrReg sp = .ok a → a.isEven = true →
    ∃ t, exec (.popl (.reg r) sp) s = .next t ∧ t.rr r = s.longAt a ∧ t.reg (s.offReg sp) = a.off + 4) ∧
  (∀ (s : State) (sp : RegCode) (m : MemOp) (a b : Address), s.mem.wf = true → overlap (s.addrRegs sp) (s.operandRegs false (.mem m)) = false →
    s.addrReg sp = .ok a → a.isEven = true → s.ea m = .ok b → b.isEven = true →
    ∃ t, exec (.pop (.mem m) sp) s = .next t ∧ t.wordAt b = s.wordAt a ∧ t.reg (s.offReg sp) = a.off + 2) ∧
  (∀ (s : State) (sp : RegCode) (m : MemOp) (a b : Address), s.mem.wf = true → overlap (s.addrRegs sp) (s.operandRegs true (.mem m)) = false →
    s.addrReg sp = .ok a → a.isEven = true → s.ea m = .ok b → b.isEven = true →
    ∃ t, exec (.popl (.mem m) sp) s = .next t ∧ t.longAt b = s.longAt a ∧ t.reg (s.offReg sp) = a.off + 4) ∧
  (∀ (s : State) (sp : RegCode) (m : RegMem),
    (overlap (s.addrRegs sp) (s.operandRegs false m) = true →
      exec (.push sp m) s = .refused .pushOverlapsSp ∧ exec (.pop m sp) s = .refused .popOverlapsSp) ∧
    (overlap (s.addrRegs sp) (s.operandRegs true m) = true →
      exec (.pushl sp m) s = .refused .pushOverlapsSp ∧ exec (.popl m sp) s = .refused .popOverlapsSp)) ∧
  (∀ a b : List RegCode, overlap a b = true ↔ ∃ x, x ∈ a ∧ x ∈ b) ∧
  (∀ (s : State) (r : RegCode) (w : Addr) (long : Bool), s.operandRegs long (.mem (.ir r)) = s.addrRegs r ∧
    s.operandRegs long (.mem (.da w)) = [] ∧ s.operandRegs long (.mem (.x w r)) = [r] ∧
    s.operandRegs false (.reg r) = [r] ∧ s.operandRegs true (.reg r) = [r, r + 1])

/-! ### Arithmetic -/

/-- For operands of 8, 16 or 32 bits and a carry-in: the result is the sum modulo 2^N, C says that the sum does not fit, Z that the result
is 0, S is its most significant bit, V says that the operands have one sign and the result the other, which is that the signed sum is out of
range, and H says that the low digits carry. (R241) -/
def Obligations.AdditionHelper : Prop :=
  ∀ (n : Nat) (a b : BitVec n) (cin : Bool), n = 8 ∨ n = 16 ∨ n = 32 →
    (addN a b cin).r.toNat = (a.toNat + b.toNat + cin.toNat) % 2 ^ n ∧
    ((addN a b cin).c = true ↔ 2 ^ n ≤ a.toNat + b.toNat + cin.toNat) ∧
    ((addN a b cin).z = true ↔ (addN a b cin).r = 0) ∧
    (addN a b cin).s = (addN a b cin).r.getLsbD (n - 1) ∧
    ((addN a b cin).v = true ↔ a.getLsbD (n - 1) = b.getLsbD (n - 1) ∧ (addN a b cin).r.getLsbD (n - 1) ≠ a.getLsbD (n - 1)) ∧
    ((addN a b cin).v = true ↔ ¬ fitsSigned n (a.toInt + b.toInt + cin.toNat)) ∧
    ((addN a b cin).h = true ↔ 16 ≤ a.toNat % 16 + b.toNat % 16 + cin.toNat)

/-- For operands of 8, 16 or 32 bits and a borrow-in: the result is the difference modulo 2^N, C says that the unsigned minuend is smaller,
Z that the result is 0, S is its most significant bit, V says that the operands differ in sign and the result has not the sign of the
minuend, and H says that the low digits borrow. (R242) -/
def Obligations.SubtractionHelper : Prop :=
  ∀ (n : Nat) (a b : BitVec n) (bin : Bool), n = 8 ∨ n = 16 ∨ n = 32 →
    ((subN a b bin).r.toNat : Int) = ((a.toNat : Int) - b.toNat - bin.toNat) % 2 ^ n ∧
    ((subN a b bin).c = true ↔ a.toNat < b.toNat + bin.toNat) ∧
    ((subN a b bin).z = true ↔ (subN a b bin).r = 0) ∧
    (subN a b bin).s = (subN a b bin).r.getLsbD (n - 1) ∧
    ((subN a b bin).v = true ↔ a.getLsbD (n - 1) ≠ b.getLsbD (n - 1) ∧ (subN a b bin).r.getLsbD (n - 1) ≠ a.getLsbD (n - 1)) ∧
    ((subN a b bin).h = true ↔ a.toNat % 16 < b.toNat % 16 + bin.toNat)

/-- For every source that can be read: the register holds the signed sum cut to the width, Z and S are those of the result, P/V says that
the sum did not fit signed, C that it did not fit unsigned; ADC and ADCB add the old carry; the byte forms clear DA and set H for a carry
out of the low digit. (R241, R244, R245) -/
def Obligations.AdditionsAddAndSetFlags : Prop :=
  (∀ (s : State) (d : RegCode) (src : Src 16) (b : Word), readSrc wordWidth s src = .ok b → ∃ t, exec (.add d src) s = .next t ∧
    IsResult ((s.reg d).toInt + b.toInt) (t.reg d) t.fcw ∧ (t.fcw.c = true ↔ carries (s.reg d) b false)) ∧
  (∀ (s : State) (d : RegCode) (src : Src 8) (b : Byte), readSrc byteWidth s src = .ok b → ∃ t, exec (.addb d src) s = .next t ∧
    IsResult ((s.rb d).toInt + b.toInt) (t.rb d) t.fcw ∧ (t.fcw.c = true ↔ carries (s.rb d) b false) ∧ t.fcw.da = false ∧
    (t.fcw.h = true ↔ 16 ≤ (s.rb d).toNat % 16 + b.toNat % 16)) ∧
  (∀ (s : State) (d : RegCode) (src : Src 32) (b : Long), d.getLsbD 0 = false → readSrc longWidth s src = .ok b →
    ∃ t, exec (.addl d src) s = .next t ∧
      IsResult ((s.rr d).toInt + b.toInt) (t.rr d) t.fcw ∧ (t.fcw.c = true ↔ carries (s.rr d) b false)) ∧
  (∀ (s : State) (d r : RegCode), ∃ t, exec (.adc d r) s = .next t ∧
    IsResult ((s.reg d).toInt + (s.reg r).toInt + s.fcw.c.toNat) (t.reg d) t.fcw ∧ (t.fcw.c = true ↔ carries (s.reg d) (s.reg r) s.fcw.c)) ∧
  (∀ (s : State) (d r : RegCode), ∃ t, exec (.adcb d r) s = .next t ∧
    IsResult ((s.rb d).toInt + (s.rb r).toInt + s.fcw.c.toNat) (t.rb d) t.fcw ∧ (t.fcw.c = true ↔ carries (s.rb d) (s.rb r) s.fcw.c) ∧
    t.fcw.da = false ∧ (t.fcw.h = true ↔ 16 ≤ (s.rb d).toNat % 16 + (s.rb r).toNat % 16 + s.fcw.c.toNat))

/-- For every source that can be read: the register holds the signed difference cut to the width, Z and S are those of the result, P/V says
that the difference did not fit signed, C is the borrow; SBC and SBCB subtract the old carry; the byte forms set DA and set H for a borrow
from the upper digit. (R242, R264, R265) -/
def Obligations.SubtractionsSubtractAndSetFlags : Prop :=
  (∀ (s : State) (d : RegCode) (src : Src 16) (b : Word), readSrc wordWidth s src = .ok b → ∃ t, exec (.sub d src) s = .next t ∧
    IsResult ((s.reg d).toInt - b.toInt) (t.reg d) t.fcw ∧ (t.fcw.c = true ↔ borrows (s.reg d) b false)) ∧
  (∀ (s : State) (d : RegCode) (src : Src 8) (b : Byte), readSrc byteWidth s src = .ok b → ∃ t, exec (.subb d src) s = .next t ∧
    IsResult ((s.rb d).toInt - b.toInt) (t.rb d) t.fcw ∧ (t.fcw.c = true ↔ borrows (s.rb d) b false) ∧ t.fcw.da = true ∧
    (t.fcw.h = true ↔ (s.rb d).toNat % 16 < b.toNat % 16)) ∧
  (∀ (s : State) (d : RegCode) (src : Src 32) (b : Long), d.getLsbD 0 = false → readSrc longWidth s src = .ok b →
    ∃ t, exec (.subl d src) s = .next t ∧
      IsResult ((s.rr d).toInt - b.toInt) (t.rr d) t.fcw ∧ (t.fcw.c = true ↔ borrows (s.rr d) b false)) ∧
  (∀ (s : State) (d r : RegCode), ∃ t, exec (.sbc d r) s = .next t ∧
    IsResult ((s.reg d).toInt - (s.reg r).toInt - s.fcw.c.toNat) (t.reg d) t.fcw ∧ (t.fcw.c = true ↔ borrows (s.reg d) (s.reg r) s.fcw.c)) ∧
  (∀ (s : State) (d r : RegCode), ∃ t, exec (.sbcb d r) s = .next t ∧
    IsResult ((s.rb d).toInt - (s.rb r).toInt - s.fcw.c.toNat) (t.rb d) t.fcw ∧ (t.fcw.c = true ↔ borrows (s.rb d) (s.rb r) s.fcw.c) ∧
    t.fcw.da = true ∧ (t.fcw.h = true ↔ (s.rb d).toNat % 16 < (s.rb r).toNat % 16 + s.fcw.c.toNat))

/-- For every operand that can be read: C, Z, S and P/V are those of the subtraction of the source from the destination; the registers and
the memory are those of the state before. (R242, R246, R247) -/
def Obligations.ComparesSetFlagsOnly : Prop :=
  (∀ (s : State) (d : RegCode) (src : Src 16) (b : Word), readSrc wordWidth s src = .ok b → ∃ t r, exec (.cp d src) s = .next t ∧
    IsResult ((s.reg d).toInt - b.toInt) (r : Word) t.fcw ∧ (t.fcw.c = true ↔ borrows (s.reg d) b false) ∧ t.gr = s.gr ∧ t.mem = s.mem) ∧
  (∀ (s : State) (d : RegCode) (src : Src 8) (b : Byte), readSrc byteWidth s src = .ok b → ∃ t r, exec (.cpb d src) s = .next t ∧
    IsResult ((s.rb d).toInt - b.toInt) (r : Byte) t.fcw ∧ (t.fcw.c = true ↔ borrows (s.rb d) b false) ∧ t.gr = s.gr ∧ t.mem = s.mem) ∧
  (∀ (s : State) (d : RegCode) (src : Src 32) (b : Long), d.getLsbD 0 = false → readSrc longWidth s src = .ok b →
    ∃ t r, exec (.cpl d src) s = .next t ∧
      IsResult ((s.rr d).toInt - b.toInt) (r : Long) t.fcw ∧ (t.fcw.c = true ↔ borrows (s.rr d) b false) ∧ t.gr = s.gr ∧ t.mem = s.mem) ∧
  (∀ (s : State) (dst : MemOp) (v : Word) (a : Address), s.ea dst = .ok a → a.isEven = true → ∃ t r, exec (.cpMemImm dst v) s = .next t ∧
    IsResult ((s.wordAt a).toInt - v.toInt) (r : Word) t.fcw ∧ (t.fcw.c = true ↔ borrows (s.wordAt a) v false) ∧ t.gr = s.gr ∧ t.mem = s.mem) ∧
  (∀ (s : State) (dst : MemOp) (v : Byte) (a : Address), s.ea dst = .ok a → ∃ t r, exec (.cpbMemImm dst v) s = .next t ∧
    IsResult ((s.readByte a).toInt - v.toInt) (r : Byte) t.fcw ∧ (t.fcw.c = true ↔ borrows (s.readByte a) v false) ∧ t.gr = s.gr ∧ t.mem = s.mem)

/-- For every operand, register or memory in canonical form, that can be read: INC and INCB leave it increased by n (1 to 16), DEC and DECB
decreased by n, NEG and NEGB negated, with Z, S and P/V of that result; NEG and NEGB set C exactly when the operand was not 0. (R253, R255,
R259) -/
def Obligations.IncrementDecrementNegate : Prop :=
  (∀ (s : State) (dst : RegMem) (n : BitVec 4) (v : Word), s.mem.wf = true → readRegMem wordWidth s dst = .ok v →
    (∃ t r, exec (.inc dst n) s = .next t ∧ readRegMem wordWidth t dst = .ok r ∧ IsResult (v.toInt + (n.toNat + 1)) r t.fcw) ∧
    (∃ t r, exec (.dec dst n) s = .next t ∧ readRegMem wordWidth t dst = .ok r ∧ IsResult (v.toInt - (n.toNat + 1)) r t.fcw) ∧
    (∃ t r, exec (.neg dst) s = .next t ∧ readRegMem wordWidth t dst = .ok r ∧ IsResult (-v.toInt) r t.fcw ∧ (t.fcw.c = true ↔ v ≠ 0))) ∧
  (∀ (s : State) (dst : RegMem) (n : BitVec 4) (v : Byte), s.mem.wf = true → readRegMem byteWidth s dst = .ok v →
    (∃ t r, exec (.incb dst n) s = .next t ∧ readRegMem byteWidth t dst = .ok r ∧ IsResult (v.toInt + (n.toNat + 1)) r t.fcw) ∧
    (∃ t r, exec (.decb dst n) s = .next t ∧ readRegMem byteWidth t dst = .ok r ∧ IsResult (v.toInt - (n.toNat + 1)) r t.fcw) ∧
    (∃ t r, exec (.negb dst) s = .next t ∧ readRegMem byteWidth t dst = .ok r ∧ IsResult (-v.toInt) r t.fcw ∧ (t.fcw.c = true ↔ v ≠ 0)))

/-- For every source that can be read: MULT leaves in the pair the signed product of its old low word and the source, MULTL in the quadruple
that of its old low long word and the source; C says that the product needs more than the source's width, Z that it is 0, S that it is
negative, P/V is 0. (R257, R258) -/
def Obligations.MultiplicationIsExact : Prop :=
  (∀ (s : State) (d : RegCode) (src : Src 16) (b : Word), d.getLsbD 0 = false → readSrc wordWidth s src = .ok b →
    ∃ t, exec (.mult d src) s = .next t ∧ (t.rr d).toInt = (s.reg (d + 1)).toInt * b.toInt ∧
      (t.fcw.c = true ↔ ¬ fitsSigned 16 ((s.reg (d + 1)).toInt * b.toInt)) ∧ (t.fcw.z = true ↔ (t.rr d).toInt = 0) ∧
      (t.fcw.s = true ↔ (t.rr d).toInt < 0) ∧ t.fcw.pv = false) ∧
  (∀ (s : State) (d : RegCode) (src : Src 32) (b : Long), d.getLsbD 0 = false → d.getLsbD 1 = false → readSrc longWidth s src = .ok b →
    ∃ t, exec (.multl d src) s = .next t ∧ (t.rq d).toInt = (s.rr (d + 2)).toInt * b.toInt ∧
      (t.fcw.c = true ↔ ¬ fitsSigned 32 ((s.rr (d + 2)).toInt * b.toInt)) ∧ (t.fcw.z = true ↔ (t.rq d).toInt = 0) ∧
      (t.fcw.s = true ↔ (t.rq d).toInt < 0) ∧ t.fcw.pv = false)

/-- For a divisor that can be read and is not 0, and a quotient (truncated toward zero) that fits: the low half of the destination holds the
quotient and the high half the remainder, which has the sign of the dividend; C and P/V are 0, Z and S those of the quotient. A divisor of 0
and a quotient that does not fit are refused by name. (R261, R262) -/
def Obligations.DivisionGivesQuotientAndRemainder : Prop :=
  (∀ (s : State) (d : RegCode) (src : Src 16) (b : Word), d.getLsbD 0 = false → readSrc wordWidth s src = .ok b →
    ((b = 0 ∨ ¬ fitsSigned 16 ((s.rr d).toInt.tdiv b.toInt)) → exec (.div d src) s = .refused .divideCornerCase) ∧
    (b ≠ 0 → fitsSigned 16 ((s.rr d).toInt.tdiv b.toInt) → ∃ t, exec (.div d src) s = .next t ∧
      (t.reg (d + 1)).toInt = (s.rr d).toInt.tdiv b.toInt ∧
      (s.rr d).toInt = (t.reg (d + 1)).toInt * b.toInt + (t.reg d).toInt ∧
      t.fcw.c = false ∧ (t.fcw.z = true ↔ t.reg (d + 1) = 0) ∧ (t.fcw.s = true ↔ (t.reg (d + 1)).toInt < 0) ∧ t.fcw.pv = false)) ∧
  (∀ (s : State) (d : RegCode) (src : Src 32) (b : Long), d.getLsbD 0 = false → d.getLsbD 1 = false → readSrc longWidth s src = .ok b →
    ((b = 0 ∨ ¬ fitsSigned 32 ((s.rq d).toInt.tdiv b.toInt)) → exec (.divl d src) s = .refused .divideCornerCase) ∧
    (b ≠ 0 → fitsSigned 32 ((s.rq d).toInt.tdiv b.toInt) → ∃ t, exec (.divl d src) s = .next t ∧
      (t.rr (d + 2)).toInt = (s.rq d).toInt.tdiv b.toInt ∧
      (s.rq d).toInt = (t.rr (d + 2)).toInt * b.toInt + (t.rr d).toInt ∧
      t.fcw.c = false ∧ (t.fcw.z = true ↔ t.rr (d + 2) = 0) ∧ (t.fcw.s = true ↔ (t.rr (d + 2)).toInt < 0) ∧ t.fcw.pv = false))

/-- EXTSB leaves in the word register the signed value of its low byte, EXTS in the pair that of its low word, EXTSL in the quadruple that
of its low long word. (R254) -/
def Obligations.SignExtension : Prop :=
  (∀ (s : State) (d : RegCode), ∃ t, exec (.extsb d) s = .next t ∧ (t.reg d).toInt = ((s.reg d).extractLsb' 0 8).toInt) ∧
  (∀ (s : State) (d : RegCode), d.getLsbD 0 = false → ∃ t, exec (.exts d) s = .next t ∧ (t.rr d).toInt = (s.reg (d + 1)).toInt) ∧
  (∀ (s : State) (d : RegCode), d.getLsbD 0 = false → d.getLsbD 1 = false →
    ∃ t, exec (.extsl d) s = .next t ∧ (t.rq d).toInt = (s.rr (d + 2)).toInt)

/-- DAB answers a next state from every state. When DA, C, H and the digits of the byte are those of a row of the table, the result is the
byte plus 6 for a half carry or a low digit above 9 and plus 0x60 for a carry or a byte above 0x99 after an addition, minus 6 for H and
minus 0x60 for C after a subtraction; C after is as the table says, Z and S those of the result. Nothing is said of the inputs of no row.
(R252) -/
def Obligations.DecimalAdjust : Prop :=
  ∀ (s : State) (d : RegCode), ∃ t, exec (.dab d) s = .next t ∧
    ((dabRow s.fcw.da s.fcw.c s.fcw.h (s.rb d)).isSome = true →
      t.rb d = (if s.fcw.da then
          s.rb d - (if s.fcw.h then 0x06 else 0) - (if s.fcw.c then 0x60 else 0)
        else
          s.rb d + (if s.fcw.h = true ∨ 9 < (s.rb d).toNat % 16 then 0x06 else 0) + (if s.fcw.c = true ∨ 0x99 < (s.rb d).toNat then 0x60 else 0)) ∧
      (t.fcw.c = true ↔ s.fcw.c = true ∨ (s.fcw.da = false ∧ 0x99 < (s.rb d).toNat)) ∧
      (t.fcw.z = true ↔ t.rb d = 0) ∧ (t.fcw.s = true ↔ (t.rb d).toInt < 0))

/-- For two byte registers that each hold two decimal digits, ADCB followed by DAB leaves the digits of the decimal sum with the carry,
modulo 100, and C says that the sum is 100 or more; SBCB followed by DAB leaves the digits of the decimal difference with the borrow, modulo
100, and C says that it is negative. (R244, R252, R264) -/
def Obligations.DecimalAdditionAndSubtraction : Prop :=
  ∀ (s : State) (d r : RegCode) (x1 x0 y1 y0 : Nat), x1 ≤ 9 → x0 ≤ 9 → y1 ≤ 9 → y0 ≤ 9 →
    s.rb d = BitVec.ofNat 8 (16 * x1 + x0) → s.rb r = BitVec.ofNat 8 (16 * y1 + y0) →
    (∃ t u, exec (.adcb d r) s = .next t ∧ exec (.dab d) t = .next u ∧
      (u.rb d).toNat / 16 * 10 + (u.rb d).toNat % 16 = (10 * x1 + x0 + (10 * y1 + y0) + s.fcw.c.toNat) % 100 ∧ (u.rb d).toNat % 16 ≤ 9 ∧
      (u.fcw.c = true ↔ 100 ≤ 10 * x1 + x0 + (10 * y1 + y0) + s.fcw.c.toNat)) ∧
    (∃ t u, exec (.sbcb d r) s = .next t ∧ exec (.dab d) t = .next u ∧
      (u.rb d).toNat / 16 * 10 + (u.rb d).toNat % 16 = (100 + (10 * x1 + x0) - (10 * y1 + y0) - s.fcw.c.toNat) % 100 ∧ (u.rb d).toNat % 16 ≤ 9 ∧
      (u.fcw.c = true ↔ 10 * x1 + x0 < 10 * y1 + y0 + s.fcw.c.toNat))

/-! ### Logical operations and conditions -/

/-- For every operand that can be read: AND, OR and XOR leave the bitwise result in the register, COM the complement in the operand (memory
in canonical form), TEST changes no register and no memory; Z and S are those of the result; the byte forms set P/V when the number of 1
bits is even and the others keep it. When the condition holds bit 0 of the register becomes 1 and its other bits stay; when it does not, the
register is unchanged. (R243, R280, R281, R282, R283, R285, R286, R284) -/
def Obligations.LogicalOperations : Prop :=
  (∀ (s : State) (d : RegCode) (src : Src 16) (b : Word), readSrc wordWidth s src = .ok b →
    (∃ t, exec (.and d src) s = .next t ∧ t.reg d = s.reg d &&& b ∧ IsLogical (t.reg d) s.fcw t.fcw) ∧
    (∃ t, exec (.or d src) s = .next t ∧ t.reg d = s.reg d ||| b ∧ IsLogical (t.reg d) s.fcw t.fcw) ∧
    (∃ t, exec (.xor d src) s = .next t ∧ t.reg d = s.reg d ^^^ b ∧ IsLogical (t.reg d) s.fcw t.fcw)) ∧
  (∀ (s : State) (d : RegCode) (src : Src 8) (b : Byte), readSrc byteWidth s src = .ok b →
    (∃ t, exec (.andb d src) s = .next t ∧ t.rb d = s.rb d &&& b ∧ IsLogical (t.rb d) s.fcw t.fcw) ∧
    (∃ t, exec (.orb d src) s = .next t ∧ t.rb d = s.rb d ||| b ∧ IsLogical (t.rb d) s.fcw t.fcw) ∧
    (∃ t, exec (.xorb d src) s = .next t ∧ t.rb d = s.rb d ^^^ b ∧ IsLogical (t.rb d) s.fcw t.fcw)) ∧
  (∀ (s : State) (dst : RegMem) (v : Word), s.mem.wf = true → readRegMem wordWidth s dst = .ok v →
    (∃ t, exec (.com dst) s = .next t ∧ readRegMem wordWidth t dst = .ok (~~~v) ∧ IsLogical (~~~v) s.fcw t.fcw) ∧
    (∃ t, exec (.test dst) s = .next t ∧ IsLogical v s.fcw t.fcw ∧ t.gr = s.gr ∧ t.mem = s.mem)) ∧
  (∀ (s : State) (dst : RegMem) (v : Byte), s.mem.wf = true → readRegMem byteWidth s dst = .ok v →
    (∃ t, exec (.comb dst) s = .next t ∧ readRegMem byteWidth t dst = .ok (~~~v) ∧ IsLogical (~~~v) s.fcw t.fcw) ∧
    (∃ t, exec (.testb dst) s = .next t ∧ IsLogical v s.fcw t.fcw ∧ t.gr = s.gr ∧ t.mem = s.mem)) ∧
  (∀ (s : State) (dst : RegMem) (v : Long), readRegMem longWidth s dst = .ok v → ∃ t, exec (.testl dst) s = .next t ∧ IsLogical v s.fcw t.fcw ∧
    t.gr = s.gr ∧ t.mem = s.mem) ∧
  (∀ (s : State) (cc : CondCode) (d : RegCode), ∃ t, exec (.tcc cc d) s = .next t ∧
    t.reg d = if s.fcw.cond cc then s.reg d ||| 1 else s.reg d) ∧
  (∀ (s : State) (cc : CondCode) (d : RegCode), ∃ t, exec (.tccb cc d) s = .next t ∧
    t.rb d = if s.fcw.cond cc then s.rb d ||| 1 else s.rb d)

/-- Each condition code is the condition of its row of the table on C, Z, S and P/V, and code k + 8 is the negation of code k. (R140) -/
def Obligations.ConditionCodeTable : Prop :=
  ∀ f : Fcw,
    f.cond 0 = false ∧ (f.cond 1 = true ↔ (f.s ^^ f.pv) = true) ∧ (f.cond 2 = true ↔ f.z = true ∨ (f.s ^^ f.pv) = true) ∧
    (f.cond 3 = true ↔ f.c = true ∨ f.z = true) ∧ (f.cond 4 = true ↔ f.pv = true) ∧ (f.cond 5 = true ↔ f.s = true) ∧
    (f.cond 6 = true ↔ f.z = true) ∧ (f.cond 7 = true ↔ f.c = true) ∧ f.cond 8 = true ∧
    (f.cond 9 = true ↔ (f.s ^^ f.pv) = false) ∧ (f.cond 10 = true ↔ f.z = false ∧ (f.s ^^ f.pv) = false) ∧
    (f.cond 11 = true ↔ f.c = false ∧ f.z = false) ∧ (f.cond 12 = true ↔ f.pv = false) ∧ (f.cond 13 = true ↔ f.s = false) ∧
    (f.cond 14 = true ↔ f.z = false) ∧ (f.cond 15 = true ↔ f.c = false) ∧ ∀ k : CondCode, f.cond (k + 8) = !f.cond k

/-- For the flags of the subtraction a minus b of 8, 16 or 32 bits: LT, LE, GE and GT hold exactly when a is less, at most, at least,
greater than b as signed numbers; ULT, ULE, UGE and UGT as unsigned numbers; EQ and NE when a equals b or not. (R140, R242) -/
def Obligations.CompareConditionsMeanOrder : Prop :=
  ∀ (n : Nat) (a b : BitVec n), n = 8 ∨ n = 16 ∨ n = 32 →
    (compareMatch a b 1 = true ↔ a.toInt < b.toInt) ∧ (compareMatch a b 2 = true ↔ a.toInt ≤ b.toInt) ∧
    (compareMatch a b 9 = true ↔ b.toInt ≤ a.toInt) ∧ (compareMatch a b 10 = true ↔ b.toInt < a.toInt) ∧
    (compareMatch a b 7 = true ↔ a.toNat < b.toNat) ∧ (compareMatch a b 3 = true ↔ a.toNat ≤ b.toNat) ∧
    (compareMatch a b 15 = true ↔ b.toNat ≤ a.toNat) ∧ (compareMatch a b 11 = true ↔ b.toNat < a.toNat) ∧
    (compareMatch a b 6 = true ↔ a = b) ∧ (compareMatch a b 14 = true ↔ a ≠ b)

/-! ### Program control -/

/-- JP goes to its target (the segment only in segmented operation) when the condition holds and the target is even, is refused when it is
odd, and goes on when the condition does not hold. JR adds twice its signed displacement when the condition holds. DJNZ and DBJNZ decrement
the register and subtract twice the displacement from the PC unless the result is 0. (R304, R306, R307) -/
def Obligations.JumpsTransferControl : Prop :=
  (∀ (s : State) (cc : CondCode) (dst : MemOp) (a : Address), s.ea dst = .ok a →
    (s.fcw.cond cc = false → exec (.jp cc dst) s = .next s) ∧
    (s.fcw.cond cc = true → a.isEven = true → ∃ t, exec (.jp cc dst) s = .next t ∧ t.pcOff = a.off ∧
      t.pcSeg = if s.segmented then a.seg else s.pcSeg) ∧
    (s.fcw.cond cc = true → a.isEven = false → exec (.jp cc dst) s = .refused .oddPc)) ∧
  (∀ (s : State) (cc : CondCode) (disp : BitVec 8), ∃ t, exec (.jr cc disp) s = .next t ∧ t.pcSeg = s.pcSeg ∧
    t.pcOff = if s.fcw.cond cc then s.pcOff + BitVec.ofInt 16 (2 * disp.toInt) else s.pcOff) ∧
  (∀ (s : State) (r : RegCode) (disp : BitVec 7), ∃ t, exec (.djnz r disp) s = .next t ∧ t.reg r = s.reg r - 1 ∧
    t.pcOff = if s.reg r = 1 then s.pcOff else s.pcOff - BitVec.ofNat 16 (2 * disp.toNat)) ∧
  (∀ (s : State) (r : RegCode) (disp : BitVec 7), ∃ t, exec (.dbjnz r disp) s = .next t ∧ t.rb r = s.rb r - 1 ∧
    t.pcOff = if s.rb r = 1 then s.pcOff else s.pcOff - BitVec.ofNat 16 (2 * disp.toNat))

/-- On a memory in canonical form with an even implied stack pointer: CALL with an even target and CALR push the PC (segmented: segment word
below offset) and go to the target, which for CALR is the PC minus twice the signed displacement; RET goes on when its condition does not
hold, and otherwise pops the PC, when it is even, and moves the stack pointer up. (R300, R301, R302, R303, R308) -/
def Obligations.CallsAndReturns : Prop :=
  (∀ (s : State) (dst : MemOp) (a sp : Address), s.mem.wf = true → s.segmented = false → s.ea dst = .ok a → a.isEven = true →
    s.addrReg 15 = .ok sp → sp.isEven = true → ∃ t, exec (.call dst) s = .next t ∧ t.pcOff = a.off ∧ t.pcSeg = s.pcSeg ∧
      t.reg 15 = s.reg 15 - 2 ∧ t.wordAt ⟨sp.seg, sp.off - 2⟩ = s.pcOff) ∧
  (∀ (s : State) (dst : MemOp) (a sp : Address), s.mem.wf = true → s.segmented = true → s.ea dst = .ok a → a.isEven = true →
    s.addrReg 14 = .ok sp → sp.isEven = true → ∃ t, exec (.call dst) s = .next t ∧ t.pcOff = a.off ∧ t.pcSeg = a.seg ∧
      t.reg 15 = s.reg 15 - 4 ∧ segOf (t.wordAt ⟨sp.seg, sp.off - 4⟩) = s.pcSeg ∧ t.wordAt ⟨sp.seg, sp.off - 2⟩ = s.pcOff) ∧
  (∀ (s : State) (disp : BitVec 12) (sp : Address), s.mem.wf = true → s.addrReg s.spCode = .ok sp → sp.isEven = true →
    ∃ t, exec (.calr disp) s = .next t ∧ t.pcOff = s.pcOff - BitVec.ofInt 16 (2 * disp.toInt) ∧ t.pcSeg = s.pcSeg ∧
      t.reg 15 = s.reg 15 - (if s.segmented then 4 else 2) ∧ t.wordAt ⟨sp.seg, sp.off - 2⟩ = s.pcOff ∧
      (s.segmented = true → segOf (t.wordAt ⟨sp.seg, sp.off - 4⟩) = s.pcSeg)) ∧
  (∀ (s : State) (cc : CondCode), s.fcw.cond cc = false → exec (.ret cc) s = .next s) ∧
  (∀ (s : State) (cc : CondCode) (sp : Address), s.fcw.cond cc = true → s.segmented = false → s.addrReg 15 = .ok sp → sp.isEven = true →
    (s.wordAt sp).getLsbD 0 = false → ∃ t, exec (.ret cc) s = .next t ∧ t.pcOff = s.wordAt sp ∧ t.pcSeg = s.pcSeg ∧ t.reg 15 = s.reg 15 + 2) ∧
  (∀ (s : State) (cc : CondCode) (sp : Address), s.fcw.cond cc = true → s.segmented = true → s.addrReg 14 = .ok sp → sp.isEven = true →
    (s.wordAt ⟨sp.seg, sp.off + 2⟩).getLsbD 0 = false → ∃ t, exec (.ret cc) s = .next t ∧ t.pcOff = s.wordAt ⟨sp.seg, sp.off + 2⟩ ∧
      t.pcSeg = segOf (s.wordAt sp) ∧ t.reg 15 = s.reg 15 + 4)

/-- When CALL can run (memory in canonical form, even target, even implied stack pointer, even PC), RET executed in the state it leaves
restores the PC, its segment, every register and the FCW. (R301, R302, R308) -/
def Obligations.ReturnUndoesCall : Prop :=
  ∀ (s : State) (dst : MemOp) (a sp : Address), s.mem.wf = true → s.pc.isEven = true → s.ea dst = .ok a → a.isEven = true →
    s.addrReg s.spCode = .ok sp → sp.isEven = true →
    ∃ t u, exec (.call dst) s = .next t ∧ exec (.ret 8) t = .next u ∧ u.pcOff = s.pcOff ∧ u.pcSeg = s.pcSeg ∧ u.gr = s.gr ∧ u.fcw = s.fcw

/-! ### Bits, rotates and shifts -/

/-- For every operand that can be read (memory in canonical form): BIT leaves the complement of the bit in Z; RES and SET leave the operand
with that bit 0 or 1 and the others as they were; the dynamic forms take the bit number from the low 4 (word) or 3 (byte) bits of the
register; TSET leaves the old most significant bit in S and all ones in the operand. (R320, R321, R322, R323, R324, R325, R326, R328) -/
def Obligations.BitOperations : Prop :=
  (∀ (s : State) (dst : RegMem) (b : BitVec 4) (v : Word), s.mem.wf = true → readRegMem wordWidth s dst = .ok v →
    (∃ t, exec (.bit dst b) s = .next t ∧ t.fcw.z = !v.getLsbD b.toNat) ∧
    (∃ t w, exec (.res dst b) s = .next t ∧ readRegMem wordWidth t dst = .ok w ∧ ∀ i, w.getLsbD i = (v.getLsbD i && i != b.toNat)) ∧
    (∃ t w, exec (.set dst b) s = .next t ∧ readRegMem wordWidth t dst = .ok w ∧ ∀ i, w.getLsbD i = (v.getLsbD i || i == b.toNat)) ∧
    (∃ t, exec (.tset dst) s = .next t ∧ t.fcw.s = v.msb ∧ readRegMem wordWidth t dst = .ok 0xFFFF)) ∧
  (∀ (s : State) (dst : RegMem) (b : BitVec 4) (v : Byte), s.mem.wf = true → b.getLsbD 3 = false → readRegMem byteWidth s dst = .ok v →
    (∃ t, exec (.bitb dst b) s = .next t ∧ t.fcw.z = !v.getLsbD b.toNat) ∧
    (∃ t w, exec (.resb dst b) s = .next t ∧ readRegMem byteWidth t dst = .ok w ∧ ∀ i, w.getLsbD i = (v.getLsbD i && i != b.toNat)) ∧
    (∃ t w, exec (.setb dst b) s = .next t ∧ readRegMem byteWidth t dst = .ok w ∧ ∀ i, w.getLsbD i = (v.getLsbD i || i == b.toNat)) ∧
    (∃ t, exec (.tsetb dst) s = .next t ∧ t.fcw.s = v.msb ∧ readRegMem byteWidth t dst = .ok 0xFF)) ∧
  (∀ (s : State) (d r : RegCode),
    (∃ t, exec (.bitDyn d r) s = .next t ∧ t.fcw.z = !(s.reg d).getLsbD ((s.reg r).toNat % 16)) ∧
    (∃ t, exec (.resDyn d r) s = .next t ∧ ∀ i, (t.reg d).getLsbD i = ((s.reg d).getLsbD i && i != (s.reg r).toNat % 16)) ∧
    (∃ t, exec (.setDyn d r) s = .next t ∧ ∀ i, (t.reg d).getLsbD i = ((s.reg d).getLsbD i || i == (s.reg r).toNat % 16)) ∧
    (∃ t, exec (.bitbDyn d r) s = .next t ∧ t.fcw.z = !(s.rb d).getLsbD ((s.reg r).toNat % 8)) ∧
    (∃ t, exec (.resbDyn d r) s = .next t ∧ ∀ i, (t.rb d).getLsbD i = ((s.rb d).getLsbD i && i != (s.reg r).toNat % 8)) ∧
    (∃ t, exec (.setbDyn d r) s = .next t ∧ ∀ i, (t.rb d).getLsbD i = ((s.rb d).getLsbD i || i == (s.reg r).toNat % 8)))

/-- RL and RR rotate the register and leave in C the last bit rotated out; RLC and RRC rotate the register and C together, as one number
with C on top. Z and S are those of the result; P/V after 1 place says that the sign changed and after 2 places is left open. (R342, R343,
R344, R345) -/
def Obligations.RotatesRotate : Prop :=
  (∀ (s : State) (d : RegCode) (two : Bool),
    (∃ t, exec (.rl d two) s = .next t ∧ t.reg d = (s.reg d).rotateLeft (if two then 2 else 1) ∧ t.fcw.c = (t.reg d).getLsbD 0 ∧
      (t.fcw.z = true ↔ t.reg d = 0) ∧ t.fcw.s = (t.reg d).msb ∧ (two = false → t.fcw.pv = ((t.reg d).msb != (s.reg d).msb))) ∧
    (∃ t, exec (.rr d two) s = .next t ∧ t.reg d = (s.reg d).rotateRight (if two then 2 else 1) ∧ t.fcw.c = (t.reg d).msb ∧
      (t.fcw.z = true ↔ t.reg d = 0) ∧ t.fcw.s = (t.reg d).msb ∧ (two = false → t.fcw.pv = ((t.reg d).msb != (s.reg d).msb))) ∧
    (∃ t, exec (.rlc d two) s = .next t ∧
      BitVec.ofBool t.fcw.c ++ t.reg d = (BitVec.ofBool s.fcw.c ++ s.reg d).rotateLeft (if two then 2 else 1) ∧
      (t.fcw.z = true ↔ t.reg d = 0) ∧ t.fcw.s = (t.reg d).msb ∧ (two = false → t.fcw.pv = ((t.reg d).msb != (s.reg d).msb))) ∧
    (∃ t, exec (.rrc d two) s = .next t ∧
      BitVec.ofBool t.fcw.c ++ t.reg d = (BitVec.ofBool s.fcw.c ++ s.reg d).rotateRight (if two then 2 else 1) ∧
      (t.fcw.z = true ↔ t.reg d = 0) ∧ t.fcw.s = (t.reg d).msb ∧ (two = false → t.fcw.pv = ((t.reg d).msb != (s.reg d).msb)))) ∧
  (∀ (s : State) (d : RegCode) (two : Bool),
    (∃ t, exec (.rlb d two) s = .next t ∧ t.rb d = (s.rb d).rotateLeft (if two then 2 else 1) ∧ t.fcw.c = (t.rb d).getLsbD 0 ∧
      (t.fcw.z = true ↔ t.rb d = 0) ∧ t.fcw.s = (t.rb d).msb ∧ (two = false → t.fcw.pv = ((t.rb d).msb != (s.rb d).msb))) ∧
    (∃ t, exec (.rrb d two) s = .next t ∧ t.rb d = (s.rb d).rotateRight (if two then 2 else 1) ∧ t.fcw.c = (t.rb d).msb ∧
      (t.fcw.z = true ↔ t.rb d = 0) ∧ t.fcw.s = (t.rb d).msb ∧ (two = false → t.fcw.pv = ((t.rb d).msb != (s.rb d).msb))) ∧
    (∃ t, exec (.rlcb d two) s = .next t ∧
      BitVec.ofBool t.fcw.c ++ t.rb d = (BitVec.ofBool s.fcw.c ++ s.rb d).rotateLeft (if two then 2 else 1) ∧
      (t.fcw.z = true ↔ t.rb d = 0) ∧ t.fcw.s = (t.rb d).msb ∧ (two = false → t.fcw.pv = ((t.rb d).msb != (s.rb d).msb))) ∧
    (∃ t, exec (.rrcb d two) s = .next t ∧
      BitVec.ofBool t.fcw.c ++ t.rb d = (BitVec.ofBool s.fcw.c ++ s.rb d).rotateRight (if two then 2 else 1) ∧
      (t.fcw.z = true ↔ t.rb d = 0) ∧ t.fcw.s = (t.rb d).msb ∧ (two = false → t.fcw.pv = ((t.rb d).msb != (s.rb d).msb))))

/-- For a count from 0 to the width, SLA, SLL, SRA and SRL and their byte and long forms leave the register shifted by that many places:
left is a product with a power of two cut to the width, arithmetic right the floor of the signed quotient, logical right that of the
unsigned one; C is the last bit shifted out (left open for a count of 0), Z and S those of the result, P/V of the arithmetic forms says that
the sign changed on the way (left open for the logical forms). A count above the width is refused by name. For a count (the word register,
or its low byte for the byte forms, as a signed number) of magnitude at most the width, SDA and SDL and their byte and long forms shift left
for a positive and right for a negative count as the static shifts do, and leave the value for a count of 0. A count of larger magnitude is
refused by name. (R350, R351, R352, R353, R354, R355, R356, R357) -/
def Obligations.ShiftsShift : Prop :=
  (∀ (s : State) (d : RegCode) (n : Nat),
    (n ≤ 16 →
      (∃ t, exec (.sla d n) s = .next t ∧ IsShift true (s.reg d) n (t.reg d) t.fcw) ∧
      (∃ t, exec (.sra d n) s = .next t ∧ IsShift true (s.reg d) (-n) (t.reg d) t.fcw) ∧
      (∃ t, exec (.sll d n) s = .next t ∧ IsShift false (s.reg d) n (t.reg d) t.fcw) ∧
      (∃ t, exec (.srl d n) s = .next t ∧ IsShift false (s.reg d) (-n) (t.reg d) t.fcw)) ∧
    (16 < n → exec (.sla d n) s = .refused .badShiftCount ∧ exec (.sra d n) s = .refused .badShiftCount ∧
      exec (.sll d n) s = .refused .badShiftCount ∧ exec (.srl d n) s = .refused .badShiftCount)) ∧
  (∀ (s : State) (d : RegCode) (n : Nat),
    (n ≤ 8 →
      (∃ t, exec (.slab d n) s = .next t ∧ IsShift true (s.rb d) n (t.rb d) t.fcw) ∧
      (∃ t, exec (.srab d n) s = .next t ∧ IsShift true (s.rb d) (-n) (t.rb d) t.fcw) ∧
      (∃ t, exec (.sllb d n) s = .next t ∧ IsShift false (s.rb d) n (t.rb d) t.fcw) ∧
      (∃ t, exec (.srlb d n) s = .next t ∧ IsShift false (s.rb d) (-n) (t.rb d) t.fcw)) ∧
    (8 < n → exec (.slab d n) s = .refused .badShiftCount ∧ exec (.srab d n) s = .refused .badShiftCount ∧
      exec (.sllb d n) s = .refused .badShiftCount ∧ exec (.srlb d n) s = .refused .badShiftCount)) ∧
  (∀ (s : State) (d : RegCode) (n : Nat), d.getLsbD 0 = false →
    (n ≤ 32 →
      (∃ t, exec (.slal d n) s = .next t ∧ IsShift true (s.rr d) n (t.rr d) t.fcw) ∧
      (∃ t, exec (.sral d n) s = .next t ∧ IsShift true (s.rr d) (-n) (t.rr d) t.fcw) ∧
      (∃ t, exec (.slll d n) s = .next t ∧ IsShift false (s.rr d) n (t.rr d) t.fcw) ∧
      (∃ t, exec (.srll d n) s = .next t ∧ IsShift false (s.rr d) (-n) (t.rr d) t.fcw)) ∧
    (32 < n → exec (.slal d n) s = .refused .badShiftCount ∧ exec (.sral d n) s = .refused .badShiftCount ∧
      exec (.slll d n) s = .refused .badShiftCount ∧ exec (.srll d n) s = .refused .badShiftCount)) ∧
  (∀ (s : State) (d r : RegCode),
    ((s.reg r).toInt.natAbs ≤ 16 →
      (∃ t, exec (.sda d r) s = .next t ∧ IsShift true (s.reg d) (s.reg r).toInt (t.reg d) t.fcw) ∧
      (∃ t, exec (.sdl d r) s = .next t ∧ IsShift false (s.reg d) (s.reg r).toInt (t.reg d) t.fcw)) ∧
    (16 < (s.reg r).toInt.natAbs → exec (.sda d r) s = .refused .badShiftCount ∧ exec (.sdl d r) s = .refused .badShiftCount)) ∧
  (∀ (s : State) (d r : RegCode) (c : Int), c = ((s.reg r).extractLsb' 0 8).toInt →
    (c.natAbs ≤ 8 →
      (∃ t, exec (.sdab d r) s = .next t ∧ IsShift true (s.rb d) c (t.rb d) t.fcw) ∧
      (∃ t, exec (.sdlb d r) s = .next t ∧ IsShift false (s.rb d) c (t.rb d) t.fcw)) ∧
    (8 < c.natAbs → exec (.sdab d r) s = .refused .badShiftCount ∧ exec (.sdlb d r) s = .refused .badShiftCount)) ∧
  (∀ (s : State) (d r : RegCode), d.getLsbD 0 = false →
    ((s.reg r).toInt.natAbs ≤ 32 →
      (∃ t, exec (.sdal d r) s = .next t ∧ IsShift true (s.rr d) (s.reg r).toInt (t.rr d) t.fcw) ∧
      (∃ t, exec (.sdll d r) s = .next t ∧ IsShift false (s.rr d) (s.reg r).toInt (t.rr d) t.fcw)) ∧
    (32 < (s.reg r).toInt.natAbs → exec (.sdal d r) s = .refused .badShiftCount ∧ exec (.sdll d r) s = .refused .badShiftCount))

/-- With the field order of the parameter RLDB_FIELD_ORDER and two different byte registers: RLDB leaves in the source its low digit above
the link's low digit, and in the link its own high digit above the source's high digit; RRDB leaves in the source the link's low digit above
its high digit, and in the link its own high digit above the source's low digit. Z says that the new link is 0; S is left open. The same
register twice is refused by name. (R346, R347) -/
def Obligations.DigitRotatesMoveDigits : Prop :=
  (∀ (s : State) (hi lo l r : RegCode), (s.cfg.rldbFieldOrder = .srcThenLink → l = lo ∧ r = hi) →
    (s.cfg.rldbFieldOrder = .linkThenSrc → l = hi ∧ r = lo) → l ≠ r →
    (∃ t, exec (.rldb hi lo) s = .next t ∧
      t.rb r = (s.rb r).extractLsb' 0 4 ++ (s.rb l).extractLsb' 0 4 ∧
      t.rb l = (s.rb l).extractLsb' 4 4 ++ (s.rb r).extractLsb' 4 4 ∧ (t.fcw.z = true ↔ t.rb l = 0)) ∧
    (∃ t, exec (.rrdb hi lo) s = .next t ∧
      t.rb r = (s.rb l).extractLsb' 0 4 ++ (s.rb r).extractLsb' 4 4 ∧
      t.rb l = (s.rb l).extractLsb' 4 4 ++ (s.rb r).extractLsb' 0 4 ∧ (t.fcw.z = true ↔ t.rb l = 0))) ∧
  (∀ (s : State) (r : RegCode), exec (.rldb r r) s = .refused .rldbSameRegister ∧ exec (.rrdb r r) s = .refused .rldbSameRegister)

/-! ### Block and string -/

/-- For registers that do not overlap, both addresses even for the word forms, and a memory in canonical form, one execution leaves the
source element at the destination address, steps both address registers by the element size (up for I, down for D), decrements the count,
sets P/V exactly when it reaches 0, and for the repeating forms puts the PC back to the instruction unless the count is 0. (R370, R371,
R373, R382, R383, R384, R385) -/
def Obligations.BlockLoadsMoveOneElement : Prop :=
  (∀ (mk : RegCode → RegCode → RegCode → Instr) (delta : Word) (rep : Bool),
    (mk, delta, rep) ∈ [(Instr.ldi, 2, false), (Instr.ldir, 2, true), (Instr.ldd, -2, false), (Instr.lddr, -2, true)] →
    ∀ (s : State) (d p r : RegCode) (a b : Address), s.mem.wf = true → disjoint3 (s.addrRegs p) (s.addrRegs d) [r] = true →
      s.addrReg p = .ok a → s.addrReg d = .ok b → a.isEven = true → b.isEven = true →
      ∃ t, exec (mk d p r) s = .next t ∧ t.wordAt b = s.wordAt a ∧ t.reg (s.offReg p) = a.off + delta ∧ t.reg (s.offReg d) = b.off + delta ∧
        t.reg r = s.reg r - 1 ∧ (t.fcw.pv = true ↔ t.reg r = 0) ∧ t.pcOff = s.blockPc rep (t.reg r == 0)) ∧
  (∀ (mk : RegCode → RegCode → RegCode → Instr) (delta : Word) (rep : Bool),
    (mk, delta, rep) ∈ [(Instr.ldib, 1, false), (Instr.ldirb, 1, true), (Instr.lddb, -1, false), (Instr.lddrb, -1, true)] →
    ∀ (s : State) (d p r : RegCode) (a b : Address), s.mem.wf = true → disjoint3 (s.addrRegs p) (s.addrRegs d) [r] = true →
      s.addrReg p = .ok a → s.addrReg d = .ok b →
      ∃ t, exec (mk d p r) s = .next t ∧ t.readByte b = s.readByte a ∧ t.reg (s.offReg p) = a.off + delta ∧ t.reg (s.offReg d) = b.off + delta ∧
        t.reg r = s.reg r - 1 ∧ (t.fcw.pv = true ↔ t.reg r = 0) ∧ t.pcOff = s.blockPc rep (t.reg r == 0))

/-- For registers that do not overlap and an address that is even for the word forms, one execution sets Z exactly when the condition holds
of the register minus the element, steps the address register by the element size, decrements the count, sets P/V exactly when it reaches 0,
and for the repeating forms puts the PC back to the instruction unless the condition held or the count is 0. For registers that do not
overlap and addresses that are even for the word forms, one execution sets Z exactly when the condition holds of the destination element
minus the source element, steps both address registers by the element size, decrements the count, sets P/V exactly when it reaches 0, and
for the repeating forms puts the PC back to the instruction unless the condition held or the count is 0. (R370, R371, R373, R374, R375,
R376, R377, R378, R379, R380, R381) -/
def Obligations.BlockComparesCompareOneElement : Prop :=
  (∀ (mk : RegCode → RegCode → RegCode → CondCode → Instr) (delta : Word) (rep : Bool),
    (mk, delta, rep) ∈ [(Instr.cpi, 2, false), (Instr.cpir, 2, true), (Instr.cpd, -2, false), (Instr.cpdr, -2, true)] →
    ∀ (s : State) (d p r : RegCode) (cc : CondCode) (a : Address), disjoint3 (s.addrRegs p) [d] [r] = true → s.addrReg p = .ok a → a.isEven = true →
      ∃ t, exec (mk d p r cc) s = .next t ∧ t.fcw.z = compareMatch (s.reg d) (s.wordAt a) cc ∧ t.reg (s.offReg p) = a.off + delta ∧
        t.reg r = s.reg r - 1 ∧ (t.fcw.pv = true ↔ t.reg r = 0) ∧ t.pcOff = s.blockPc rep (t.fcw.z || t.reg r == 0)) ∧
  (∀ (mk : RegCode → RegCode → RegCode → CondCode → Instr) (delta : Word) (rep : Bool),
    (mk, delta, rep) ∈ [(Instr.cpib, 1, false), (Instr.cpirb, 1, true), (Instr.cpdb, -1, false), (Instr.cpdrb, -1, true)] →
    ∀ (s : State) (d p r : RegCode) (cc : CondCode) (a : Address), disjoint3 (s.addrRegs p) [byteHome d] [r] = true → s.addrReg p = .ok a →
      ∃ t, exec (mk d p r cc) s = .next t ∧ t.fcw.z = compareMatch (s.rb d) (s.readByte a) cc ∧ t.reg (s.offReg p) = a.off + delta ∧
        t.reg r = s.reg r - 1 ∧ (t.fcw.pv = true ↔ t.reg r = 0) ∧ t.pcOff = s.blockPc rep (t.fcw.z || t.reg r == 0)) ∧
  (∀ (mk : RegCode → RegCode → RegCode → CondCode → Instr) (delta : Word) (rep : Bool),
    (mk, delta, rep) ∈ [(Instr.cpsi, 2, false), (Instr.cpsir, 2, true), (Instr.cpsd, -2, false), (Instr.cpsdr, -2, true)] →
    ∀ (s : State) (d p r : RegCode) (cc : CondCode) (a b : Address), disjoint3 (s.addrRegs p) (s.addrRegs d) [r] = true →
      s.addrReg p = .ok a → s.addrReg d = .ok b → a.isEven = true → b.isEven = true →
      ∃ t, exec (mk d p r cc) s = .next t ∧ t.fcw.z = compareMatch (s.wordAt b) (s.wordAt a) cc ∧ t.reg (s.offReg p) = a.off + delta ∧
        t.reg (s.offReg d) = b.off + delta ∧ t.reg r = s.reg r - 1 ∧ (t.fcw.pv = true ↔ t.reg r = 0) ∧
        t.pcOff = s.blockPc rep (t.fcw.z || t.reg r == 0)) ∧
  (∀ (mk : RegCode → RegCode → RegCode → CondCode → Instr) (delta : Word) (rep : Bool),
    (mk, delta, rep) ∈ [(Instr.cpsib, 1, false), (Instr.cpsirb, 1, true), (Instr.cpsdb, -1, false), (Instr.cpsdrb, -1, true)] →
    ∀ (s : State) (d p r : RegCode) (cc : CondCode) (a b : Address), disjoint3 (s.addrRegs p) (s.addrRegs d) [r] = true →
      s.addrReg p = .ok a → s.addrReg d = .ok b →
      ∃ t, exec (mk d p r cc) s = .next t ∧ t.fcw.z = compareMatch (s.readByte b) (s.readByte a) cc ∧ t.reg (s.offReg p) = a.off + delta ∧
        t.reg (s.offReg d) = b.off + delta ∧ t.reg r = s.reg r - 1 ∧ (t.fcw.pv = true ↔ t.reg r = 0) ∧
        t.pcOff = s.blockPc rep (t.fcw.z || t.reg r == 0))

/-- For registers that do not overlap and none of which the rule excludes: the translate forms, on a memory in canonical form, replace the
byte of the string by the entry of the table numbered by it; the test forms leave that entry in RH1, Z saying that it is 0, and store
nothing. The string register steps by 1, the table register stays, the count is decremented, P/V says that it reached 0, and the repeating
forms put the PC back to the instruction unless the count is 0 (test forms: or the entry was not 0). (R370, R371, R395, R396, R397, R398,
R399, R400, R401, R402, R403) -/
def Obligations.TranslatesUseTheTable : Prop :=
  (∀ (mk : RegCode → RegCode → RegCode → Instr) (delta : Word) (rep : Bool),
    (mk, delta, rep) ∈ [(Instr.trib, 1, false), (Instr.trirb, 1, true), (Instr.trdb, -1, false), (Instr.trdrb, -1, true)] →
    ∀ (s : State) (d p r : RegCode) (a b : Address), s.mem.wf = true → disjoint3 (s.addrRegs d) (s.addrRegs p) [r] = true →
      (s.segmented = false → d ≠ 1 ∧ p ≠ 1) → s.addrReg d = .ok a → s.addrReg p = .ok b →
      ∃ t, exec (mk d p r) s = .next t ∧ t.readByte a = s.readByte ⟨b.seg, b.off + (0#8 ++ s.readByte a)⟩ ∧
        t.reg (s.offReg d) = a.off + delta ∧ t.addrReg p = s.addrReg p ∧ t.reg r = s.reg r - 1 ∧ (t.fcw.pv = true ↔ t.reg r = 0) ∧
        t.pcOff = s.blockPc rep (t.reg r == 0)) ∧
  (∀ (mk : RegCode → RegCode → RegCode → Instr) (delta : Word) (rep : Bool),
    (mk, delta, rep) ∈ [(Instr.trtib, 1, false), (Instr.trtirb, 1, true), (Instr.trtdb, -1, false), (Instr.trtdrb, -1, true)] →
    ∀ (s : State) (d p r : RegCode) (a b : Address), disjoint3 (s.addrRegs d) (s.addrRegs p) [r] = true →
      1 ∉ s.addrRegs d → 1 ∉ s.addrRegs p → r ≠ 1 → s.addrReg d = .ok a → s.addrReg p = .ok b →
      ∃ t, exec (mk d p r) s = .next t ∧ t.rb 1 = s.readByte ⟨b.seg, b.off + (0#8 ++ s.readByte a)⟩ ∧ (t.fcw.z = true ↔ t.rb 1 = 0) ∧
        t.reg (s.offReg d) = a.off + delta ∧ t.addrReg p = s.addrReg p ∧ t.mem = s.mem ∧ t.reg r = s.reg r - 1 ∧
        (t.fcw.pv = true ↔ t.reg r = 0) ∧ t.pcOff = s.blockPc rep (t.rb 1 != 0 || t.reg r == 0))

/-- When two of the registers of a block load, compare, translate or block I/O instruction (in system mode) have a word register in common,
counting both registers of a pair, the instruction is refused by name. So is a translate instruction whose string or table register is R1 in
non-segmented operation, and a translate-and-test instruction any of whose registers is or contains R1. What counts as overlap follows the
rules as log 36 reads them: two of the three groups of registers have one in common. (R372, R395, R420) -/
def Obligations.BlockOverlapStops : Prop :=
  (∀ a b c : List RegCode, disjoint3 a b c = true ↔ (∀ x ∈ a, x ∉ b ∧ x ∉ c) ∧ ∀ x ∈ b, x ∉ c) ∧
  (∀ (s : State) (d p r : RegCode) (cc : CondCode), disjoint3 (s.addrRegs p) (s.addrRegs d) [r] = false →
    (∀ mk, mk ∈ [Instr.ldi, Instr.ldir, Instr.ldd, Instr.lddr, Instr.ldib, Instr.ldirb, Instr.lddb, Instr.lddrb] →
      exec (mk d p r) s = .refused .blockRegisterOverlap) ∧
    (∀ mk, mk ∈ [Instr.cpsi, Instr.cpsir, Instr.cpsd, Instr.cpsdr, Instr.cpsib, Instr.cpsirb, Instr.cpsdb, Instr.cpsdrb] →
      exec (mk d p r cc) s = .refused .blockRegisterOverlap)) ∧
  (∀ (s : State) (d p r : RegCode) (cc : CondCode), disjoint3 (s.addrRegs p) [d] [r] = false →
    ∀ mk, mk ∈ [Instr.cpi, Instr.cpir, Instr.cpd, Instr.cpdr] → exec (mk d p r cc) s = .refused .blockRegisterOverlap) ∧
  (∀ (s : State) (d p r : RegCode) (cc : CondCode), disjoint3 (s.addrRegs p) [byteHome d] [r] = false →
    ∀ mk, mk ∈ [Instr.cpib, Instr.cpirb, Instr.cpdb, Instr.cpdrb] → exec (mk d p r cc) s = .refused .blockRegisterOverlap) ∧
  (∀ (s : State) (d p r : RegCode), disjoint3 (s.addrRegs d) (s.addrRegs p) [r] = false →
    ∀ mk, mk ∈ [Instr.trib, Instr.trirb, Instr.trdb, Instr.trdrb, Instr.trtib, Instr.trtirb, Instr.trtdb, Instr.trtdrb] →
      exec (mk d p r) s = .refused .blockRegisterOverlap) ∧
  (∀ (s : State) (d p r : RegCode), s.segmented = false → (d = 1 ∨ p = 1) →
    ∀ mk, mk ∈ [Instr.trib, Instr.trirb, Instr.trdb, Instr.trdrb, Instr.trtib, Instr.trtirb, Instr.trtdb, Instr.trtdrb] →
      exec (mk d p r) s = .refused .blockRegisterOverlap) ∧
  (∀ (s : State) (d p r : RegCode), (1 ∈ s.addrRegs d ∨ 1 ∈ s.addrRegs p ∨ r = 1) →
    ∀ mk, mk ∈ [Instr.trtib, Instr.trtirb, Instr.trtdb, Instr.trtdrb] → exec (mk d p r) s = .refused .blockRegisterOverlap) ∧
  (∀ (s : State) (d p r : RegCode), s.fcw.sn = true → disjoint3 (s.addrRegs d) [p] [r] = false →
    ∀ mk, mk ∈ [Instr.ini, Instr.inir, Instr.ind, Instr.indr, Instr.inib, Instr.inirb, Instr.indb, Instr.indrb,
        Instr.sini, Instr.sinir, Instr.sind, Instr.sindr, Instr.sinib, Instr.sinirb, Instr.sindb, Instr.sindrb] →
      exec (mk d p r) s = .refused .blockRegisterOverlap) ∧
  (∀ (s : State) (d p r : RegCode), s.fcw.sn = true → disjoint3 (s.addrRegs p) [d] [r] = false →
    ∀ mk, mk ∈ [Instr.outi, Instr.otir, Instr.outd, Instr.otdr, Instr.outib, Instr.otirb, Instr.outdb, Instr.otdrb,
        Instr.souti, Instr.sotir, Instr.soutd, Instr.sotdr, Instr.soutib, Instr.sotirb, Instr.soutdb, Instr.sotdrb] →
      exec (mk d p r) s = .refused .blockRegisterOverlap)

/-! ### Input and output -/

/-- In system mode: IN, INB, SIN and SINB ask the port named by the register or the instruction, in the I/O or the special I/O space, and
leave in the register what the device answers when the outside supplies an answer (a byte form its low byte); OUT, OUTB, SOUT and SOUTB
record one output event with the register's value. The list of answers, the low byte of an answer for the byte forms and the recorded port
reads are the model's choice (log 9). (R412, R413, R414, R415, R416, R417, R418) -/
def Obligations.SingleInputAndOutput : Prop :=
  (∀ (s : State) (d p : RegCode) (q : Word) (i : Instr) (space : IoSpace) (port : Word), s.fcw.sn = true →
    (i, space, port) ∈ [(Instr.inReg d p, IoSpace.io, s.reg p), (.inPort d q, .io, q), (.sin d q, .sio, q)] →
    ∃ t, exec i s = .next t ∧ t.events = s.events ++ [.askWord space port] ∧
      ∀ v vs, s.portAnswers = v :: vs → t.reg d = v ∧ t.portAnswers = vs) ∧
  (∀ (s : State) (d p : RegCode) (q : Word) (i : Instr) (space : IoSpace) (port : Word), s.fcw.sn = true →
    (i, space, port) ∈ [(Instr.inbReg d p, IoSpace.io, s.reg p), (.inbPort d q, .io, q), (.sinb d q, .sio, q)] →
    ∃ t, exec i s = .next t ∧ t.events = s.events ++ [.askByte space port] ∧
      ∀ v vs, s.portAnswers = v :: vs → t.rb d = v.extractLsb' 0 8 ∧ t.portAnswers = vs) ∧
  (∀ (s : State) (d r : RegCode) (q : Word) (i : Instr) (space : IoSpace) (port : Word), s.fcw.sn = true →
    (i, space, port) ∈ [(Instr.outReg d r, IoSpace.io, s.reg d), (.outPort q r, .io, q), (.sout q r, .sio, q)] →
    ∃ t, exec i s = .next t ∧ t.events = s.events ++ [.portWord space port (s.reg r)]) ∧
  (∀ (s : State) (d r : RegCode) (q : Word) (i : Instr) (space : IoSpace) (port : Word), s.fcw.sn = true →
    (i, space, port) ∈ [(Instr.outbReg d r, IoSpace.io, s.reg d), (.outbPort q r, .io, q), (.soutb q r, .sio, q)] →
    ∃ t, exec i s = .next t ∧ t.events = s.events ++ [.portByte space port (s.rb r)])

/-- In system mode, for registers that do not overlap, an address that is even for the word forms, and a memory in canonical form: one
execution asks the port held in the port register, stores the answer of the device (when the outside supplies one) at the address, steps the
address register by the element size, leaves the port register, decrements the count, sets P/V exactly when it reaches 0, and for the
repeating forms puts the PC back unless the count is 0. The list of answers, the low byte of an answer for the byte forms and the recorded
port reads are the model's choice (log 9). In system mode, for registers that do not overlap and an address that is even for the word forms:
one execution records one output event with the element at the address, to the port held in the port register, steps the address register by
the element size, leaves the port register, decrements the count, sets P/V exactly when it reaches 0, and for the repeating forms puts the
PC back unless the count is 0. (R370, R371, R420, R421, R422, R425, R426, R412, R423, R424, R427, R428) -/
def Obligations.BlockInputAndOutput : Prop :=
  (∀ (mk : RegCode → RegCode → RegCode → Instr) (space : IoSpace) (delta : Word) (rep : Bool),
    (mk, space, delta, rep) ∈ [(Instr.ini, IoSpace.io, 2, false), (Instr.inir, IoSpace.io, 2, true), (Instr.ind, IoSpace.io, -2, false), (Instr.indr, IoSpace.io, -2, true),
        (Instr.sini, IoSpace.sio, 2, false), (Instr.sinir, IoSpace.sio, 2, true), (Instr.sind, IoSpace.sio, -2, false), (Instr.sindr, IoSpace.sio, -2, true)] →
    ∀ (s : State) (d p r : RegCode) (a : Address), s.fcw.sn = true → s.mem.wf = true → disjoint3 (s.addrRegs d) [p] [r] = true →
      s.addrReg d = .ok a → a.isEven = true →
      ∃ t, exec (mk d p r) s = .next t ∧ t.events = s.events ++ [.askWord space (s.reg p)] ∧
        (∀ v vs, s.portAnswers = v :: vs → t.wordAt a = v ∧ t.portAnswers = vs) ∧ t.reg (s.offReg d) = a.off + delta ∧ t.reg p = s.reg p ∧
        t.reg r = s.reg r - 1 ∧ (t.fcw.pv = true ↔ t.reg r = 0) ∧ t.pcOff = s.blockPc rep (t.reg r == 0)) ∧
  (∀ (mk : RegCode → RegCode → RegCode → Instr) (space : IoSpace) (delta : Word) (rep : Bool),
    (mk, space, delta, rep) ∈ [(Instr.inib, IoSpace.io, 1, false), (Instr.inirb, IoSpace.io, 1, true), (Instr.indb, IoSpace.io, -1, false), (Instr.indrb, IoSpace.io, -1, true),
        (Instr.sinib, IoSpace.sio, 1, false), (Instr.sinirb, IoSpace.sio, 1, true), (Instr.sindb, IoSpace.sio, -1, false), (Instr.sindrb, IoSpace.sio, -1, true)] →
    ∀ (s : State) (d p r : RegCode) (a : Address), s.fcw.sn = true → s.mem.wf = true → disjoint3 (s.addrRegs d) [p] [r] = true →
      s.addrReg d = .ok a →
      ∃ t, exec (mk d p r) s = .next t ∧ t.events = s.events ++ [.askByte space (s.reg p)] ∧
        (∀ v vs, s.portAnswers = v :: vs → t.readByte a = v.extractLsb' 0 8 ∧ t.portAnswers = vs) ∧ t.reg (s.offReg d) = a.off + delta ∧
        t.reg p = s.reg p ∧ t.reg r = s.reg r - 1 ∧ (t.fcw.pv = true ↔ t.reg r = 0) ∧ t.pcOff = s.blockPc rep (t.reg r == 0)) ∧
  (∀ (mk : RegCode → RegCode → RegCode → Instr) (space : IoSpace) (delta : Word) (rep : Bool),
    (mk, space, delta, rep) ∈ [(Instr.outi, IoSpace.io, 2, false), (Instr.otir, IoSpace.io, 2, true), (Instr.outd, IoSpace.io, -2, false), (Instr.otdr, IoSpace.io, -2, true),
        (Instr.souti, IoSpace.sio, 2, false), (Instr.sotir, IoSpace.sio, 2, true), (Instr.soutd, IoSpace.sio, -2, false), (Instr.sotdr, IoSpace.sio, -2, true)] →
    ∀ (s : State) (d p r : RegCode) (a : Address), s.fcw.sn = true → disjoint3 (s.addrRegs p) [d] [r] = true →
      s.addrReg p = .ok a → a.isEven = true →
      ∃ t, exec (mk d p r) s = .next t ∧ t.events = s.events ++ [.portWord space (s.reg d) (s.wordAt a)] ∧
        t.reg (s.offReg p) = a.off + delta ∧ t.reg d = s.reg d ∧ t.reg r = s.reg r - 1 ∧ (t.fcw.pv = true ↔ t.reg r = 0) ∧
        t.pcOff = s.blockPc rep (t.reg r == 0)) ∧
  (∀ (mk : RegCode → RegCode → RegCode → Instr) (space : IoSpace) (delta : Word) (rep : Bool),
    (mk, space, delta, rep) ∈ [(Instr.outib, IoSpace.io, 1, false), (Instr.otirb, IoSpace.io, 1, true), (Instr.outdb, IoSpace.io, -1, false), (Instr.otdrb, IoSpace.io, -1, true),
        (Instr.soutib, IoSpace.sio, 1, false), (Instr.sotirb, IoSpace.sio, 1, true), (Instr.soutdb, IoSpace.sio, -1, false), (Instr.sotdrb, IoSpace.sio, -1, true)] →
    ∀ (s : State) (d p r : RegCode) (a : Address), s.fcw.sn = true → disjoint3 (s.addrRegs p) [d] [r] = true → s.addrReg p = .ok a →
      ∃ t, exec (mk d p r) s = .next t ∧ t.events = s.events ++ [.portByte space (s.reg d) (s.readByte a)] ∧
        t.reg (s.offReg p) = a.off + delta ∧ t.reg d = s.reg d ∧ t.reg r = s.reg r - 1 ∧ (t.fcw.pv = true ↔ t.reg r = 0) ∧
        t.pcOff = s.blockPc rep (t.reg r == 0))

/-! ### CPU control -/

/-- COMFLG, RESFLG and SETFLG complement, clear and set the flags C, Z, S, P/V that their field selects and keep the others. In system mode
DI and EI clear and set the enables they name, and HALT halts. NOP changes nothing. In system mode MSET makes the output line active and
MRES inactive, each recorded as an event; MREQ records the value it leaves on the line; MBIT changes no register, no memory and no flag but
S. What MBIT reads and what MREQ leaves in Z, S, the register and the line is left open. (R442, R443, R444, R445, R446, R449, R450, R455) -/
def Obligations.FlagEnableAndLineInstructions : Prop :=
  (∀ (s : State) (f : BitVec 4), ∃ t, exec (.comflg f) s = .next t ∧ t.fcw.c = (s.fcw.c ^^ f.getLsbD 3) ∧ t.fcw.z = (s.fcw.z ^^ f.getLsbD 2) ∧
    t.fcw.s = (s.fcw.s ^^ f.getLsbD 1) ∧ t.fcw.pv = (s.fcw.pv ^^ f.getLsbD 0)) ∧
  (∀ (s : State) (f : BitVec 4), ∃ t, exec (.resflg f) s = .next t ∧ t.fcw.c = (s.fcw.c && !f.getLsbD 3) ∧ t.fcw.z = (s.fcw.z && !f.getLsbD 2) ∧
    t.fcw.s = (s.fcw.s && !f.getLsbD 1) ∧ t.fcw.pv = (s.fcw.pv && !f.getLsbD 0)) ∧
  (∀ (s : State) (f : BitVec 4), ∃ t, exec (.setflg f) s = .next t ∧ t.fcw.c = (s.fcw.c || f.getLsbD 3) ∧ t.fcw.z = (s.fcw.z || f.getLsbD 2) ∧
    t.fcw.s = (s.fcw.s || f.getLsbD 1) ∧ t.fcw.pv = (s.fcw.pv || f.getLsbD 0)) ∧
  (∀ (s : State) (vi nvi : Bool), s.fcw.sn = true → ∃ t, exec (.di vi nvi) s = .next t ∧ t.fcw.vie = (s.fcw.vie && !vi) ∧
    t.fcw.nvie = (s.fcw.nvie && !nvi)) ∧
  (∀ (s : State) (vi nvi : Bool), s.fcw.sn = true → ∃ t, exec (.ei vi nvi) s = .next t ∧ t.fcw.vie = (s.fcw.vie || vi) ∧
    t.fcw.nvie = (s.fcw.nvie || nvi)) ∧
  (∀ s : State, s.fcw.sn = true → exec .halt s = .next { s with halted := true }) ∧
  (∀ s : State, exec .nop s = .next s) ∧
  (∀ s : State, s.fcw.sn = true →
    (∃ t, exec .mset s = .next t ∧ t.multiMicroOut = true ∧ t.events = s.events ++ [.multiMicro true]) ∧
    (∃ t, exec .mres s = .next t ∧ t.multiMicroOut = false ∧ t.events = s.events ++ [.multiMicro false]) ∧
    (∃ t, exec .mbit s = .next t ∧ t.gr = s.gr ∧ t.mem = s.mem ∧ t.fcw = { s.fcw with s := t.fcw.s }) ∧
    (∀ d, ∃ t, exec (.mreq d) s = .next t ∧ t.events = s.events ++ [.multiMicro t.multiMicroOut] ∧ t.mem = s.mem))

/-- In system mode LDCTL leaves in the register the FCW word, RE and the rate of REFRESH in bits 15 and 14 to 9 (the row is left open),
NPSAP's halves in bits 14 to 8 and 15 to 8 with 0 elsewhere (log 31), Rn14 and Rn15; PSAPSEG and NSPSEG exist on the AMZ8001 only and are
refused on the AMZ8002. In either mode LDCTLB leaves the flag byte in the register. In system mode LDCTL takes the FCW from the register
when its reserved bits are 0, REFRESH from bits 15, 14 to 9 and 8 to 0, NPSAP's halves from bits 14 to 8 and 15 to 8, and writes Rn14 and
Rn15; PSAPSEG and NSPSEG are refused on the AMZ8002; a reserved FCW bit is refused by name. In either mode LDCTLB takes the six flags from
the byte when its two low bits are 0. (R452, R453, R58) -/
def Obligations.ControlRegistersReadAndWrite : Prop :=
  (∀ (s : State) (d : RegCode), s.fcw.sn = true →
    (∃ t, exec (.ldctlRead d .fcw) s = .next t ∧ t.reg d = s.fcw.word) ∧
    (∃ t, exec (.ldctlRead d .refresh) s = .next t ∧ (t.reg d).getLsbD 15 = s.refresh.re ∧ (t.reg d).extractLsb' 9 6 = s.refresh.rate) ∧
    (∃ t, exec (.ldctlRead d .psapoff) s = .next t ∧ t.reg d = s.psapOff ++ 0#8) ∧
    (∃ t, exec (.ldctlRead d .nspoff) s = .next t ∧ t.reg d = s.rn15) ∧
    (s.cfg.variant = .amz8001 → (∃ t, exec (.ldctlRead d .psapseg) s = .next t ∧ t.reg d = 0#1 ++ s.psapSeg ++ 0#8) ∧
      (∃ t, exec (.ldctlRead d .nspseg) s = .next t ∧ t.reg d = s.rn14)) ∧
    (s.cfg.variant = .amz8002 → exec (.ldctlRead d .psapseg) s = .refused .undefinedEncoding ∧
      exec (.ldctlRead d .nspseg) s = .refused .undefinedEncoding)) ∧
  (∀ (s : State) (d : RegCode), ∃ t, exec (.ldctlbRead d) s = .next t ∧ t.rb d = s.fcw.word.extractLsb' 0 8) ∧
  (∀ (s : State) (r : RegCode), s.fcw.sn = true →
    (fcwReservedClear (s.reg r) = true →
      ∃ t, exec (.ldctlWrite .fcw r) s = .next t ∧ IsStatus s.cfg.variant s.fcw t.fcw (s.reg r)) ∧
    (fcwReservedClear (s.reg r) = false → exec (.ldctlWrite .fcw r) s = .refused .reservedFcwBit) ∧
    (∃ t, exec (.ldctlWrite .refresh r) s = .next t ∧ t.refresh.re = (s.reg r).getLsbD 15 ∧ t.refresh.rate = (s.reg r).extractLsb' 9 6 ∧
      t.refresh.row = (s.reg r).extractLsb' 0 9) ∧
    (∃ t, exec (.ldctlWrite .psapoff r) s = .next t ∧ t.psapOff = (s.reg r).extractLsb' 8 8) ∧
    (∃ t, exec (.ldctlWrite .nspoff r) s = .next t ∧ t.rn15 = s.reg r) ∧
    (s.cfg.variant = .amz8001 → (∃ t, exec (.ldctlWrite .psapseg r) s = .next t ∧ t.psapSeg = (s.reg r).extractLsb' 8 7) ∧
      (∃ t, exec (.ldctlWrite .nspseg r) s = .next t ∧ t.rn14 = s.reg r)) ∧
    (s.cfg.variant = .amz8002 → exec (.ldctlWrite .psapseg r) s = .refused .undefinedEncoding ∧
      exec (.ldctlWrite .nspseg r) s = .refused .undefinedEncoding)) ∧
  (∀ (s : State) (r : RegCode),
    (flagsReservedClear (s.rb r) = true → ∃ t, exec (.ldctlbWrite r) s = .next t ∧ t.fcw.word.extractLsb' 0 8 = s.rb r) ∧
    (flagsReservedClear (s.rb r) = false → exec (.ldctlbWrite r) s = .refused .reservedFcwBit))

/-- In system mode, for a block at an even address whose FCW word has its reserved bits 0 and whose PC is even: non-segmented, LDPS takes
the FCW from the first word and the PC from the second; segmented, the FCW from the second word, the PC's segment from the third (bits 14 to
8) and its offset from the fourth. (R440, R454) -/
def Obligations.LoadProgramStatus : Prop :=
  (∀ (s : State) (src : MemOp) (a : Address), s.fcw.sn = true → s.segmented = false → s.ea src = .ok a → a.isEven = true →
    fcwReservedClear (s.wordAt a) = true → (s.wordAt ⟨a.seg, a.off + 2⟩).getLsbD 0 = false →
    ∃ t, exec (.ldps src) s = .next t ∧ IsStatus s.cfg.variant s.fcw t.fcw (s.wordAt a) ∧ t.pcSeg = s.pcSeg ∧
      t.pcOff = s.wordAt ⟨a.seg, a.off + 2⟩) ∧
  (∀ (s : State) (src : MemOp) (a : Address), s.fcw.sn = true → s.segmented = true → s.ea src = .ok a → a.isEven = true →
    fcwReservedClear (s.wordAt ⟨a.seg, a.off + 2⟩) = true → (s.wordAt ⟨a.seg, a.off + 6⟩).getLsbD 0 = false →
    ∃ t, exec (.ldps src) s = .next t ∧ IsStatus s.cfg.variant s.fcw t.fcw (s.wordAt ⟨a.seg, a.off + 2⟩) ∧
      t.pcSeg = segOf (s.wordAt ⟨a.seg, a.off + 4⟩) ∧ t.pcOff = s.wordAt ⟨a.seg, a.off + 6⟩)
end

