-- ==== Sys2Proof/Laws/Bits.lean ====
section
/-! SUPPORT. The halves of concatenations, and concatenations of halves. -/

namespace Sys2Proof.Machine

theorem append_low {n m : Nat} (a : BitVec n) (b : BitVec m) : (a ++ b).extractLsb' 0 m = b := by
  apply BitVec.eq_of_getLsbD_eq
  intro i hi
  simp [BitVec.getLsbD_append, hi]

theorem append_high {n m : Nat} (a : BitVec n) (b : BitVec m) : (a ++ b).extractLsb' m n = a := by
  apply BitVec.eq_of_getLsbD_eq
  intro i hi
  simp [BitVec.getLsbD_append, hi]

theorem append_halves {n m : Nat} (v : BitVec (n + m)) : v.extractLsb' m n ++ v.extractLsb' 0 m = v := by
  apply BitVec.eq_of_getLsbD_eq
  intro i hi
  rw [BitVec.getLsbD_append]
  simp only [BitVec.getLsbD_extractLsb']
  split
  · rename_i h; simp [h]
  · have h1 : m + (i - m) = i := by omega
    have h2 : i - m < n := by omega
    simp [h1, h2]

@[simp] theorem hiByte_loByte (v : Word) : hiByte v ++ loByte v = v := append_halves (n := 8) (m := 8) v
@[simp] theorem hiByte_append (a b : Byte) : hiByte (a ++ b) = a := append_high a b
@[simp] theorem loByte_append (a b : Byte) : loByte (a ++ b) = b := append_low a b
@[simp] theorem hiWord_loWord (v : Long) : hiWord v ++ loWord v = v := append_halves (n := 16) (m := 16) v
@[simp] theorem hiWord_append (a b : Word) : hiWord (a ++ b) = a := append_high a b
@[simp] theorem loWord_append (a b : Word) : loWord (a ++ b) = b := append_low a b
@[simp] theorem hiLong_loLong (v : Quad) : hiLong v ++ loLong v = v := append_halves (n := 32) (m := 32) v
@[simp] theorem hiLong_append (a b : Long) : hiLong (a ++ b) = a := append_high a b
@[simp] theorem loLong_append (a b : Long) : loLong (a ++ b) = b := append_low a b

/-- The segment number in a segment word that the CPU writes (spec/44_program_control.md R301). -/
theorem segOf_segWord (a : BitVec 1) (n : SegNum) (b : Byte) : segOf (a ++ n ++ b) = n := by
  apply BitVec.eq_of_getLsbD_eq
  intro i hi
  change ((a ++ n ++ b : BitVec (1 + 7 + 8)).extractLsb' 8 7).getLsbD i = n.getLsbD i
  simp only [BitVec.getLsbD_extractLsb', BitVec.getLsbD_append]
  simp [hi]

theorem getLsbD_add_even {n : Nat} (x k : BitVec n) (h : k.getLsbD 0 = false) : (x + k).getLsbD 0 = x.getLsbD 0 := by
  rcases Nat.eq_zero_or_pos n with hn | hn
  · subst hn; simp [BitVec.getLsbD_of_ge]
  · simp only [BitVec.getLsbD, Nat.testBit_zero, BitVec.toNat_add] at h ⊢
    have hm : 2 ^ n % 2 = 0 := by
      obtain ⟨k, rfl⟩ : ∃ k, n = k + 1 := ⟨n - 1, by omega⟩
      omega
    have h1 : (x.toNat + k.toNat) % 2 ^ n % 2 = (x.toNat + k.toNat) % 2 := Nat.mod_mod_of_dvd _ (Nat.dvd_of_mod_eq_zero hm)
    have h2 : k.toNat % 2 = 0 := by simpa using h
    rw [h1]
    have : (x.toNat + k.toNat) % 2 = x.toNat % 2 := by omega
    rw [this]

end Sys2Proof.Machine
end

