-- ==== Sys2Proof/Laws/State.lean ====
section
/-! SUPPORT. One lemma per field and update of the state, each true by `rfl`. -/

namespace Sys2Proof.Machine

/-! ### setFcw -/

@[simp] theorem State.setFcw_cfg (s : State) (f : Fcw) : (s.setFcw f).cfg = s.cfg := rfl
@[simp] theorem State.setFcw_gr (s : State) (f : Fcw) : (s.setFcw f).gr = s.gr := rfl
@[simp] theorem State.setFcw_pcSeg (s : State) (f : Fcw) : (s.setFcw f).pcSeg = s.pcSeg := rfl
@[simp] theorem State.setFcw_pcOff (s : State) (f : Fcw) : (s.setFcw f).pcOff = s.pcOff := rfl
@[simp] theorem State.setFcw_fcw (s : State) (f : Fcw) : (s.setFcw f).fcw = f := rfl
@[simp] theorem State.setFcw_psapSeg (s : State) (f : Fcw) : (s.setFcw f).psapSeg = s.psapSeg := rfl
@[simp] theorem State.setFcw_psapOff (s : State) (f : Fcw) : (s.setFcw f).psapOff = s.psapOff := rfl
@[simp] theorem State.setFcw_refresh (s : State) (f : Fcw) : (s.setFcw f).refresh = s.refresh := rfl
@[simp] theorem State.setFcw_halted (s : State) (f : Fcw) : (s.setFcw f).halted = s.halted := rfl
@[simp] theorem State.setFcw_mem (s : State) (f : Fcw) : (s.setFcw f).mem = s.mem := rfl
@[simp] theorem State.setFcw_multiMicroOut (s : State) (f : Fcw) : (s.setFcw f).multiMicroOut = s.multiMicroOut := rfl
@[simp] theorem State.setFcw_events (s : State) (f : Fcw) : (s.setFcw f).events = s.events := rfl
@[simp] theorem State.setFcw_requests (s : State) (f : Fcw) : (s.setFcw f).requests = s.requests := rfl
@[simp] theorem State.setFcw_portAnswers (s : State) (f : Fcw) : (s.setFcw f).portAnswers = s.portAnswers := rfl
@[simp] theorem State.setFcw_freeIndex (s : State) (f : Fcw) : (s.setFcw f).freeIndex = s.freeIndex := rfl
@[simp] theorem State.setFcw_stores (s : State) (f : Fcw) : (s.setFcw f).stores = s.stores := rfl
@[simp] theorem State.setFcw_repeating (s : State) (f : Fcw) : (s.setFcw f).repeating = s.repeating := rfl
@[simp] theorem State.setFcw_key (s : State) (f : Fcw) (b : Address) : (s.setFcw f).key b = s.key b := rfl
@[simp] theorem State.setFcw_readByte (s : State) (f : Fcw) (b : Address) : (s.setFcw f).readByte b = s.readByte b := rfl
@[simp] theorem State.setFcw_wordAt (s : State) (f : Fcw) (b : Address) : (s.setFcw f).wordAt b = s.wordAt b := rfl
@[simp] theorem State.setFcw_longAt (s : State) (f : Fcw) (b : Address) : (s.setFcw f).longAt b = s.longAt b := rfl

/-! ### setReg -/

@[simp] theorem State.setReg_cfg (s : State) (n : RegCode) (v : Word) : (s.setReg n v).cfg = s.cfg := rfl
@[simp] theorem State.setReg_gr (s : State) (n : RegCode) (v : Word) : (s.setReg n v).gr = s.gr.set (s.phys n) v := rfl
@[simp] theorem State.setReg_pcSeg (s : State) (n : RegCode) (v : Word) : (s.setReg n v).pcSeg = s.pcSeg := rfl
@[simp] theorem State.setReg_pcOff (s : State) (n : RegCode) (v : Word) : (s.setReg n v).pcOff = s.pcOff := rfl
@[simp] theorem State.setReg_fcw (s : State) (n : RegCode) (v : Word) : (s.setReg n v).fcw = s.fcw := rfl
@[simp] theorem State.setReg_psapSeg (s : State) (n : RegCode) (v : Word) : (s.setReg n v).psapSeg = s.psapSeg := rfl
@[simp] theorem State.setReg_psapOff (s : State) (n : RegCode) (v : Word) : (s.setReg n v).psapOff = s.psapOff := rfl
@[simp] theorem State.setReg_refresh (s : State) (n : RegCode) (v : Word) : (s.setReg n v).refresh = s.refresh := rfl
@[simp] theorem State.setReg_halted (s : State) (n : RegCode) (v : Word) : (s.setReg n v).halted = s.halted := rfl
@[simp] theorem State.setReg_mem (s : State) (n : RegCode) (v : Word) : (s.setReg n v).mem = s.mem := rfl
@[simp] theorem State.setReg_multiMicroOut (s : State) (n : RegCode) (v : Word) : (s.setReg n v).multiMicroOut = s.multiMicroOut := rfl
@[simp] theorem State.setReg_events (s : State) (n : RegCode) (v : Word) : (s.setReg n v).events = s.events := rfl
@[simp] theorem State.setReg_requests (s : State) (n : RegCode) (v : Word) : (s.setReg n v).requests = s.requests := rfl
@[simp] theorem State.setReg_portAnswers (s : State) (n : RegCode) (v : Word) : (s.setReg n v).portAnswers = s.portAnswers := rfl
@[simp] theorem State.setReg_freeIndex (s : State) (n : RegCode) (v : Word) : (s.setReg n v).freeIndex = s.freeIndex := rfl
@[simp] theorem State.setReg_stores (s : State) (n : RegCode) (v : Word) : (s.setReg n v).stores = s.stores := rfl
@[simp] theorem State.setReg_repeating (s : State) (n : RegCode) (v : Word) : (s.setReg n v).repeating = s.repeating := rfl
@[simp] theorem State.setReg_segmented (s : State) (n : RegCode) (v : Word) : (s.setReg n v).segmented = s.segmented := rfl
@[simp] theorem State.setReg_phys (s : State) (n : RegCode) (v : Word) (m : RegCode) : (s.setReg n v).phys m = s.phys m := rfl
@[simp] theorem State.setReg_key (s : State) (n : RegCode) (v : Word) (b : Address) : (s.setReg n v).key b = s.key b := rfl
@[simp] theorem State.setReg_readByte (s : State) (n : RegCode) (v : Word) (b : Address) : (s.setReg n v).readByte b = s.readByte b := rfl
@[simp] theorem State.setReg_wordAt (s : State) (n : RegCode) (v : Word) (b : Address) : (s.setReg n v).wordAt b = s.wordAt b := rfl
@[simp] theorem State.setReg_longAt (s : State) (n : RegCode) (v : Word) (b : Address) : (s.setReg n v).longAt b = s.longAt b := rfl

/-! ### setRn14 -/

@[simp] theorem State.setRn14_cfg (s : State) (v : Word) : (s.setRn14 v).cfg = s.cfg := rfl
@[simp] theorem State.setRn14_gr (s : State) (v : Word) : (s.setRn14 v).gr = s.gr.set 14 v := rfl
@[simp] theorem State.setRn14_pcSeg (s : State) (v : Word) : (s.setRn14 v).pcSeg = s.pcSeg := rfl
@[simp] theorem State.setRn14_pcOff (s : State) (v : Word) : (s.setRn14 v).pcOff = s.pcOff := rfl
@[simp] theorem State.setRn14_fcw (s : State) (v : Word) : (s.setRn14 v).fcw = s.fcw := rfl
@[simp] theorem State.setRn14_psapSeg (s : State) (v : Word) : (s.setRn14 v).psapSeg = s.psapSeg := rfl
@[simp] theorem State.setRn14_psapOff (s : State) (v : Word) : (s.setRn14 v).psapOff = s.psapOff := rfl
@[simp] theorem State.setRn14_refresh (s : State) (v : Word) : (s.setRn14 v).refresh = s.refresh := rfl
@[simp] theorem State.setRn14_halted (s : State) (v : Word) : (s.setRn14 v).halted = s.halted := rfl
@[simp] theorem State.setRn14_mem (s : State) (v : Word) : (s.setRn14 v).mem = s.mem := rfl
@[simp] theorem State.setRn14_multiMicroOut (s : State) (v : Word) : (s.setRn14 v).multiMicroOut = s.multiMicroOut := rfl
@[simp] theorem State.setRn14_events (s : State) (v : Word) : (s.setRn14 v).events = s.events := rfl
@[simp] theorem State.setRn14_requests (s : State) (v : Word) : (s.setRn14 v).requests = s.requests := rfl
@[simp] theorem State.setRn14_portAnswers (s : State) (v : Word) : (s.setRn14 v).portAnswers = s.portAnswers := rfl
@[simp] theorem State.setRn14_freeIndex (s : State) (v : Word) : (s.setRn14 v).freeIndex = s.freeIndex := rfl
@[simp] theorem State.setRn14_stores (s : State) (v : Word) : (s.setRn14 v).stores = s.stores := rfl
@[simp] theorem State.setRn14_repeating (s : State) (v : Word) : (s.setRn14 v).repeating = s.repeating := rfl
@[simp] theorem State.setRn14_segmented (s : State) (v : Word) : (s.setRn14 v).segmented = s.segmented := rfl
@[simp] theorem State.setRn14_phys (s : State) (v : Word) (m : RegCode) : (s.setRn14 v).phys m = s.phys m := rfl
@[simp] theorem State.setRn14_key (s : State) (v : Word) (b : Address) : (s.setRn14 v).key b = s.key b := rfl
@[simp] theorem State.setRn14_readByte (s : State) (v : Word) (b : Address) : (s.setRn14 v).readByte b = s.readByte b := rfl
@[simp] theorem State.setRn14_wordAt (s : State) (v : Word) (b : Address) : (s.setRn14 v).wordAt b = s.wordAt b := rfl
@[simp] theorem State.setRn14_longAt (s : State) (v : Word) (b : Address) : (s.setRn14 v).longAt b = s.longAt b := rfl

/-! ### setRn15 -/

@[simp] theorem State.setRn15_cfg (s : State) (v : Word) : (s.setRn15 v).cfg = s.cfg := rfl
@[simp] theorem State.setRn15_gr (s : State) (v : Word) : (s.setRn15 v).gr = s.gr.set 15 v := rfl
@[simp] theorem State.setRn15_pcSeg (s : State) (v : Word) : (s.setRn15 v).pcSeg = s.pcSeg := rfl
@[simp] theorem State.setRn15_pcOff (s : State) (v : Word) : (s.setRn15 v).pcOff = s.pcOff := rfl
@[simp] theorem State.setRn15_fcw (s : State) (v : Word) : (s.setRn15 v).fcw = s.fcw := rfl
@[simp] theorem State.setRn15_psapSeg (s : State) (v : Word) : (s.setRn15 v).psapSeg = s.psapSeg := rfl
@[simp] theorem State.setRn15_psapOff (s : State) (v : Word) : (s.setRn15 v).psapOff = s.psapOff := rfl
@[simp] theorem State.setRn15_refresh (s : State) (v : Word) : (s.setRn15 v).refresh = s.refresh := rfl
@[simp] theorem State.setRn15_halted (s : State) (v : Word) : (s.setRn15 v).halted = s.halted := rfl
@[simp] theorem State.setRn15_mem (s : State) (v : Word) : (s.setRn15 v).mem = s.mem := rfl
@[simp] theorem State.setRn15_multiMicroOut (s : State) (v : Word) : (s.setRn15 v).multiMicroOut = s.multiMicroOut := rfl
@[simp] theorem State.setRn15_events (s : State) (v : Word) : (s.setRn15 v).events = s.events := rfl
@[simp] theorem State.setRn15_requests (s : State) (v : Word) : (s.setRn15 v).requests = s.requests := rfl
@[simp] theorem State.setRn15_portAnswers (s : State) (v : Word) : (s.setRn15 v).portAnswers = s.portAnswers := rfl
@[simp] theorem State.setRn15_freeIndex (s : State) (v : Word) : (s.setRn15 v).freeIndex = s.freeIndex := rfl
@[simp] theorem State.setRn15_stores (s : State) (v : Word) : (s.setRn15 v).stores = s.stores := rfl
@[simp] theorem State.setRn15_repeating (s : State) (v : Word) : (s.setRn15 v).repeating = s.repeating := rfl
@[simp] theorem State.setRn15_segmented (s : State) (v : Word) : (s.setRn15 v).segmented = s.segmented := rfl
@[simp] theorem State.setRn15_phys (s : State) (v : Word) (m : RegCode) : (s.setRn15 v).phys m = s.phys m := rfl
@[simp] theorem State.setRn15_key (s : State) (v : Word) (b : Address) : (s.setRn15 v).key b = s.key b := rfl
@[simp] theorem State.setRn15_readByte (s : State) (v : Word) (b : Address) : (s.setRn15 v).readByte b = s.readByte b := rfl
@[simp] theorem State.setRn15_wordAt (s : State) (v : Word) (b : Address) : (s.setRn15 v).wordAt b = s.wordAt b := rfl
@[simp] theorem State.setRn15_longAt (s : State) (v : Word) (b : Address) : (s.setRn15 v).longAt b = s.longAt b := rfl

/-! ### setRs15 -/

@[simp] theorem State.setRs15_cfg (s : State) (v : Word) : (s.setRs15 v).cfg = s.cfg := rfl
@[simp] theorem State.setRs15_gr (s : State) (v : Word) : (s.setRs15 v).gr = s.gr.set 17 v := rfl
@[simp] theorem State.setRs15_pcSeg (s : State) (v : Word) : (s.setRs15 v).pcSeg = s.pcSeg := rfl
@[simp] theorem State.setRs15_pcOff (s : State) (v : Word) : (s.setRs15 v).pcOff = s.pcOff := rfl
@[simp] theorem State.setRs15_fcw (s : State) (v : Word) : (s.setRs15 v).fcw = s.fcw := rfl
@[simp] theorem State.setRs15_psapSeg (s : State) (v : Word) : (s.setRs15 v).psapSeg = s.psapSeg := rfl
@[simp] theorem State.setRs15_psapOff (s : State) (v : Word) : (s.setRs15 v).psapOff = s.psapOff := rfl
@[simp] theorem State.setRs15_refresh (s : State) (v : Word) : (s.setRs15 v).refresh = s.refresh := rfl
@[simp] theorem State.setRs15_halted (s : State) (v : Word) : (s.setRs15 v).halted = s.halted := rfl
@[simp] theorem State.setRs15_mem (s : State) (v : Word) : (s.setRs15 v).mem = s.mem := rfl
@[simp] theorem State.setRs15_multiMicroOut (s : State) (v : Word) : (s.setRs15 v).multiMicroOut = s.multiMicroOut := rfl
@[simp] theorem State.setRs15_events (s : State) (v : Word) : (s.setRs15 v).events = s.events := rfl
@[simp] theorem State.setRs15_requests (s : State) (v : Word) : (s.setRs15 v).requests = s.requests := rfl
@[simp] theorem State.setRs15_portAnswers (s : State) (v : Word) : (s.setRs15 v).portAnswers = s.portAnswers := rfl
@[simp] theorem State.setRs15_freeIndex (s : State) (v : Word) : (s.setRs15 v).freeIndex = s.freeIndex := rfl
@[simp] theorem State.setRs15_stores (s : State) (v : Word) : (s.setRs15 v).stores = s.stores := rfl
@[simp] theorem State.setRs15_repeating (s : State) (v : Word) : (s.setRs15 v).repeating = s.repeating := rfl
@[simp] theorem State.setRs15_segmented (s : State) (v : Word) : (s.setRs15 v).segmented = s.segmented := rfl
@[simp] theorem State.setRs15_phys (s : State) (v : Word) (m : RegCode) : (s.setRs15 v).phys m = s.phys m := rfl
@[simp] theorem State.setRs15_key (s : State) (v : Word) (b : Address) : (s.setRs15 v).key b = s.key b := rfl
@[simp] theorem State.setRs15_readByte (s : State) (v : Word) (b : Address) : (s.setRs15 v).readByte b = s.readByte b := rfl
@[simp] theorem State.setRs15_wordAt (s : State) (v : Word) (b : Address) : (s.setRs15 v).wordAt b = s.wordAt b := rfl
@[simp] theorem State.setRs15_longAt (s : State) (v : Word) (b : Address) : (s.setRs15 v).longAt b = s.longAt b := rfl

/-! ### setRb -/

@[simp] theorem State.setRb_cfg (s : State) (c : RegCode) (v : Byte) : (s.setRb c v).cfg = s.cfg := rfl
@[simp] theorem State.setRb_pcSeg (s : State) (c : RegCode) (v : Byte) : (s.setRb c v).pcSeg = s.pcSeg := rfl
@[simp] theorem State.setRb_pcOff (s : State) (c : RegCode) (v : Byte) : (s.setRb c v).pcOff = s.pcOff := rfl
@[simp] theorem State.setRb_fcw (s : State) (c : RegCode) (v : Byte) : (s.setRb c v).fcw = s.fcw := rfl
@[simp] theorem State.setRb_psapSeg (s : State) (c : RegCode) (v : Byte) : (s.setRb c v).psapSeg = s.psapSeg := rfl
@[simp] theorem State.setRb_psapOff (s : State) (c : RegCode) (v : Byte) : (s.setRb c v).psapOff = s.psapOff := rfl
@[simp] theorem State.setRb_refresh (s : State) (c : RegCode) (v : Byte) : (s.setRb c v).refresh = s.refresh := rfl
@[simp] theorem State.setRb_halted (s : State) (c : RegCode) (v : Byte) : (s.setRb c v).halted = s.halted := rfl
@[simp] theorem State.setRb_mem (s : State) (c : RegCode) (v : Byte) : (s.setRb c v).mem = s.mem := rfl
@[simp] theorem State.setRb_multiMicroOut (s : State) (c : RegCode) (v : Byte) : (s.setRb c v).multiMicroOut = s.multiMicroOut := rfl
@[simp] theorem State.setRb_events (s : State) (c : RegCode) (v : Byte) : (s.setRb c v).events = s.events := rfl
@[simp] theorem State.setRb_requests (s : State) (c : RegCode) (v : Byte) : (s.setRb c v).requests = s.requests := rfl
@[simp] theorem State.setRb_portAnswers (s : State) (c : RegCode) (v : Byte) : (s.setRb c v).portAnswers = s.portAnswers := rfl
@[simp] theorem State.setRb_freeIndex (s : State) (c : RegCode) (v : Byte) : (s.setRb c v).freeIndex = s.freeIndex := rfl
@[simp] theorem State.setRb_stores (s : State) (c : RegCode) (v : Byte) : (s.setRb c v).stores = s.stores := rfl
@[simp] theorem State.setRb_repeating (s : State) (c : RegCode) (v : Byte) : (s.setRb c v).repeating = s.repeating := rfl
@[simp] theorem State.setRb_segmented (s : State) (c : RegCode) (v : Byte) : (s.setRb c v).segmented = s.segmented := rfl
@[simp] theorem State.setRb_phys (s : State) (c : RegCode) (v : Byte) (m : RegCode) : (s.setRb c v).phys m = s.phys m := rfl
@[simp] theorem State.setRb_key (s : State) (c : RegCode) (v : Byte) (b : Address) : (s.setRb c v).key b = s.key b := rfl
@[simp] theorem State.setRb_readByte (s : State) (c : RegCode) (v : Byte) (b : Address) : (s.setRb c v).readByte b = s.readByte b := rfl
@[simp] theorem State.setRb_wordAt (s : State) (c : RegCode) (v : Byte) (b : Address) : (s.setRb c v).wordAt b = s.wordAt b := rfl
@[simp] theorem State.setRb_longAt (s : State) (c : RegCode) (v : Byte) (b : Address) : (s.setRb c v).longAt b = s.longAt b := rfl

/-! ### setRr -/

@[simp] theorem State.setRr_cfg (s : State) (n : RegCode) (v : Long) : (s.setRr n v).cfg = s.cfg := rfl
@[simp] theorem State.setRr_pcSeg (s : State) (n : RegCode) (v : Long) : (s.setRr n v).pcSeg = s.pcSeg := rfl
@[simp] theorem State.setRr_pcOff (s : State) (n : RegCode) (v : Long) : (s.setRr n v).pcOff = s.pcOff := rfl
@[simp] theorem State.setRr_fcw (s : State) (n : RegCode) (v : Long) : (s.setRr n v).fcw = s.fcw := rfl
@[simp] theorem State.setRr_psapSeg (s : State) (n : RegCode) (v : Long) : (s.setRr n v).psapSeg = s.psapSeg := rfl
@[simp] theorem State.setRr_psapOff (s : State) (n : RegCode) (v : Long) : (s.setRr n v).psapOff = s.psapOff := rfl
@[simp] theorem State.setRr_refresh (s : State) (n : RegCode) (v : Long) : (s.setRr n v).refresh = s.refresh := rfl
@[simp] theorem State.setRr_halted (s : State) (n : RegCode) (v : Long) : (s.setRr n v).halted = s.halted := rfl
@[simp] theorem State.setRr_mem (s : State) (n : RegCode) (v : Long) : (s.setRr n v).mem = s.mem := rfl
@[simp] theorem State.setRr_multiMicroOut (s : State) (n : RegCode) (v : Long) : (s.setRr n v).multiMicroOut = s.multiMicroOut := rfl
@[simp] theorem State.setRr_events (s : State) (n : RegCode) (v : Long) : (s.setRr n v).events = s.events := rfl
@[simp] theorem State.setRr_requests (s : State) (n : RegCode) (v : Long) : (s.setRr n v).requests = s.requests := rfl
@[simp] theorem State.setRr_portAnswers (s : State) (n : RegCode) (v : Long) : (s.setRr n v).portAnswers = s.portAnswers := rfl
@[simp] theorem State.setRr_freeIndex (s : State) (n : RegCode) (v : Long) : (s.setRr n v).freeIndex = s.freeIndex := rfl
@[simp] theorem State.setRr_stores (s : State) (n : RegCode) (v : Long) : (s.setRr n v).stores = s.stores := rfl
@[simp] theorem State.setRr_repeating (s : State) (n : RegCode) (v : Long) : (s.setRr n v).repeating = s.repeating := rfl
@[simp] theorem State.setRr_segmented (s : State) (n : RegCode) (v : Long) : (s.setRr n v).segmented = s.segmented := rfl
@[simp] theorem State.setRr_phys (s : State) (n : RegCode) (v : Long) (m : RegCode) : (s.setRr n v).phys m = s.phys m := rfl
@[simp] theorem State.setRr_key (s : State) (n : RegCode) (v : Long) (b : Address) : (s.setRr n v).key b = s.key b := rfl
@[simp] theorem State.setRr_readByte (s : State) (n : RegCode) (v : Long) (b : Address) : (s.setRr n v).readByte b = s.readByte b := rfl
@[simp] theorem State.setRr_wordAt (s : State) (n : RegCode) (v : Long) (b : Address) : (s.setRr n v).wordAt b = s.wordAt b := rfl
@[simp] theorem State.setRr_longAt (s : State) (n : RegCode) (v : Long) (b : Address) : (s.setRr n v).longAt b = s.longAt b := rfl

/-! ### setRq -/

@[simp] theorem State.setRq_cfg (s : State) (n : RegCode) (v : Quad) : (s.setRq n v).cfg = s.cfg := rfl
@[simp] theorem State.setRq_pcSeg (s : State) (n : RegCode) (v : Quad) : (s.setRq n v).pcSeg = s.pcSeg := rfl
@[simp] theorem State.setRq_pcOff (s : State) (n : RegCode) (v : Quad) : (s.setRq n v).pcOff = s.pcOff := rfl
@[simp] theorem State.setRq_fcw (s : State) (n : RegCode) (v : Quad) : (s.setRq n v).fcw = s.fcw := rfl
@[simp] theorem State.setRq_psapSeg (s : State) (n : RegCode) (v : Quad) : (s.setRq n v).psapSeg = s.psapSeg := rfl
@[simp] theorem State.setRq_psapOff (s : State) (n : RegCode) (v : Quad) : (s.setRq n v).psapOff = s.psapOff := rfl
@[simp] theorem State.setRq_refresh (s : State) (n : RegCode) (v : Quad) : (s.setRq n v).refresh = s.refresh := rfl
@[simp] theorem State.setRq_halted (s : State) (n : RegCode) (v : Quad) : (s.setRq n v).halted = s.halted := rfl
@[simp] theorem State.setRq_mem (s : State) (n : RegCode) (v : Quad) : (s.setRq n v).mem = s.mem := rfl
@[simp] theorem State.setRq_multiMicroOut (s : State) (n : RegCode) (v : Quad) : (s.setRq n v).multiMicroOut = s.multiMicroOut := rfl
@[simp] theorem State.setRq_events (s : State) (n : RegCode) (v : Quad) : (s.setRq n v).events = s.events := rfl
@[simp] theorem State.setRq_requests (s : State) (n : RegCode) (v : Quad) : (s.setRq n v).requests = s.requests := rfl
@[simp] theorem State.setRq_portAnswers (s : State) (n : RegCode) (v : Quad) : (s.setRq n v).portAnswers = s.portAnswers := rfl
@[simp] theorem State.setRq_freeIndex (s : State) (n : RegCode) (v : Quad) : (s.setRq n v).freeIndex = s.freeIndex := rfl
@[simp] theorem State.setRq_stores (s : State) (n : RegCode) (v : Quad) : (s.setRq n v).stores = s.stores := rfl
@[simp] theorem State.setRq_repeating (s : State) (n : RegCode) (v : Quad) : (s.setRq n v).repeating = s.repeating := rfl
@[simp] theorem State.setRq_segmented (s : State) (n : RegCode) (v : Quad) : (s.setRq n v).segmented = s.segmented := rfl
@[simp] theorem State.setRq_phys (s : State) (n : RegCode) (v : Quad) (m : RegCode) : (s.setRq n v).phys m = s.phys m := rfl
@[simp] theorem State.setRq_key (s : State) (n : RegCode) (v : Quad) (b : Address) : (s.setRq n v).key b = s.key b := rfl
@[simp] theorem State.setRq_readByte (s : State) (n : RegCode) (v : Quad) (b : Address) : (s.setRq n v).readByte b = s.readByte b := rfl
@[simp] theorem State.setRq_wordAt (s : State) (n : RegCode) (v : Quad) (b : Address) : (s.setRq n v).wordAt b = s.wordAt b := rfl
@[simp] theorem State.setRq_longAt (s : State) (n : RegCode) (v : Quad) (b : Address) : (s.setRq n v).longAt b = s.longAt b := rfl

/-! ### autoStep -/

@[simp] theorem State.autoStep_cfg (s : State) (n : RegCode) (k : Word) : (s.autoStep n k).cfg = s.cfg := rfl
@[simp] theorem State.autoStep_pcSeg (s : State) (n : RegCode) (k : Word) : (s.autoStep n k).pcSeg = s.pcSeg := rfl
@[simp] theorem State.autoStep_pcOff (s : State) (n : RegCode) (k : Word) : (s.autoStep n k).pcOff = s.pcOff := rfl
@[simp] theorem State.autoStep_fcw (s : State) (n : RegCode) (k : Word) : (s.autoStep n k).fcw = s.fcw := rfl
@[simp] theorem State.autoStep_psapSeg (s : State) (n : RegCode) (k : Word) : (s.autoStep n k).psapSeg = s.psapSeg := rfl
@[simp] theorem State.autoStep_psapOff (s : State) (n : RegCode) (k : Word) : (s.autoStep n k).psapOff = s.psapOff := rfl
@[simp] theorem State.autoStep_refresh (s : State) (n : RegCode) (k : Word) : (s.autoStep n k).refresh = s.refresh := rfl
@[simp] theorem State.autoStep_halted (s : State) (n : RegCode) (k : Word) : (s.autoStep n k).halted = s.halted := rfl
@[simp] theorem State.autoStep_mem (s : State) (n : RegCode) (k : Word) : (s.autoStep n k).mem = s.mem := rfl
@[simp] theorem State.autoStep_multiMicroOut (s : State) (n : RegCode) (k : Word) : (s.autoStep n k).multiMicroOut = s.multiMicroOut := rfl
@[simp] theorem State.autoStep_events (s : State) (n : RegCode) (k : Word) : (s.autoStep n k).events = s.events := rfl
@[simp] theorem State.autoStep_requests (s : State) (n : RegCode) (k : Word) : (s.autoStep n k).requests = s.requests := rfl
@[simp] theorem State.autoStep_portAnswers (s : State) (n : RegCode) (k : Word) : (s.autoStep n k).portAnswers = s.portAnswers := rfl
@[simp] theorem State.autoStep_freeIndex (s : State) (n : RegCode) (k : Word) : (s.autoStep n k).freeIndex = s.freeIndex := rfl
@[simp] theorem State.autoStep_stores (s : State) (n : RegCode) (k : Word) : (s.autoStep n k).stores = s.stores := rfl
@[simp] theorem State.autoStep_repeating (s : State) (n : RegCode) (k : Word) : (s.autoStep n k).repeating = s.repeating := rfl
@[simp] theorem State.autoStep_segmented (s : State) (n : RegCode) (k : Word) : (s.autoStep n k).segmented = s.segmented := rfl
@[simp] theorem State.autoStep_phys (s : State) (n : RegCode) (k : Word) (m : RegCode) : (s.autoStep n k).phys m = s.phys m := rfl
@[simp] theorem State.autoStep_key (s : State) (n : RegCode) (k : Word) (b : Address) : (s.autoStep n k).key b = s.key b := rfl
@[simp] theorem State.autoStep_readByte (s : State) (n : RegCode) (k : Word) (b : Address) : (s.autoStep n k).readByte b = s.readByte b := rfl
@[simp] theorem State.autoStep_wordAt (s : State) (n : RegCode) (k : Word) (b : Address) : (s.autoStep n k).wordAt b = s.wordAt b := rfl
@[simp] theorem State.autoStep_longAt (s : State) (n : RegCode) (k : Word) (b : Address) : (s.autoStep n k).longAt b = s.longAt b := rfl

/-! ### writeByte -/

@[simp] theorem State.writeByte_cfg (s : State) (a : Address) (v : Byte) : (s.writeByte a v).cfg = s.cfg := rfl
@[simp] theorem State.writeByte_gr (s : State) (a : Address) (v : Byte) : (s.writeByte a v).gr = s.gr := rfl
@[simp] theorem State.writeByte_pcSeg (s : State) (a : Address) (v : Byte) : (s.writeByte a v).pcSeg = s.pcSeg := rfl
@[simp] theorem State.writeByte_pcOff (s : State) (a : Address) (v : Byte) : (s.writeByte a v).pcOff = s.pcOff := rfl
@[simp] theorem State.writeByte_fcw (s : State) (a : Address) (v : Byte) : (s.writeByte a v).fcw = s.fcw := rfl
@[simp] theorem State.writeByte_psapSeg (s : State) (a : Address) (v : Byte) : (s.writeByte a v).psapSeg = s.psapSeg := rfl
@[simp] theorem State.writeByte_psapOff (s : State) (a : Address) (v : Byte) : (s.writeByte a v).psapOff = s.psapOff := rfl
@[simp] theorem State.writeByte_refresh (s : State) (a : Address) (v : Byte) : (s.writeByte a v).refresh = s.refresh := rfl
@[simp] theorem State.writeByte_halted (s : State) (a : Address) (v : Byte) : (s.writeByte a v).halted = s.halted := rfl
@[simp] theorem State.writeByte_mem (s : State) (a : Address) (v : Byte) : (s.writeByte a v).mem = s.mem.write (s.key a) v := rfl
@[simp] theorem State.writeByte_multiMicroOut (s : State) (a : Address) (v : Byte) : (s.writeByte a v).multiMicroOut = s.multiMicroOut := rfl
@[simp] theorem State.writeByte_events (s : State) (a : Address) (v : Byte) : (s.writeByte a v).events = s.events := rfl
@[simp] theorem State.writeByte_requests (s : State) (a : Address) (v : Byte) : (s.writeByte a v).requests = s.requests := rfl
@[simp] theorem State.writeByte_portAnswers (s : State) (a : Address) (v : Byte) : (s.writeByte a v).portAnswers = s.portAnswers := rfl
@[simp] theorem State.writeByte_freeIndex (s : State) (a : Address) (v : Byte) : (s.writeByte a v).freeIndex = s.freeIndex := rfl
@[simp] theorem State.writeByte_stores (s : State) (a : Address) (v : Byte) : (s.writeByte a v).stores = s.key a :: s.stores := rfl
@[simp] theorem State.writeByte_repeating (s : State) (a : Address) (v : Byte) : (s.writeByte a v).repeating = s.repeating := rfl
@[simp] theorem State.writeByte_segmented (s : State) (a : Address) (v : Byte) : (s.writeByte a v).segmented = s.segmented := rfl
@[simp] theorem State.writeByte_phys (s : State) (a : Address) (v : Byte) (m : RegCode) : (s.writeByte a v).phys m = s.phys m := rfl
@[simp] theorem State.writeByte_key (s : State) (a : Address) (v : Byte) (b : Address) : (s.writeByte a v).key b = s.key b := rfl
@[simp] theorem State.writeByte_reg (s : State) (a : Address) (v : Byte) (m : RegCode) : (s.writeByte a v).reg m = s.reg m := rfl

/-! ### putWord -/

@[simp] theorem State.putWord_cfg (s : State) (a : Address) (v : Word) : (s.putWord a v).cfg = s.cfg := rfl
@[simp] theorem State.putWord_gr (s : State) (a : Address) (v : Word) : (s.putWord a v).gr = s.gr := rfl
@[simp] theorem State.putWord_pcSeg (s : State) (a : Address) (v : Word) : (s.putWord a v).pcSeg = s.pcSeg := rfl
@[simp] theorem State.putWord_pcOff (s : State) (a : Address) (v : Word) : (s.putWord a v).pcOff = s.pcOff := rfl
@[simp] theorem State.putWord_fcw (s : State) (a : Address) (v : Word) : (s.putWord a v).fcw = s.fcw := rfl
@[simp] theorem State.putWord_psapSeg (s : State) (a : Address) (v : Word) : (s.putWord a v).psapSeg = s.psapSeg := rfl
@[simp] theorem State.putWord_psapOff (s : State) (a : Address) (v : Word) : (s.putWord a v).psapOff = s.psapOff := rfl
@[simp] theorem State.putWord_refresh (s : State) (a : Address) (v : Word) : (s.putWord a v).refresh = s.refresh := rfl
@[simp] theorem State.putWord_halted (s : State) (a : Address) (v : Word) : (s.putWord a v).halted = s.halted := rfl
@[simp] theorem State.putWord_multiMicroOut (s : State) (a : Address) (v : Word) : (s.putWord a v).multiMicroOut = s.multiMicroOut := rfl
@[simp] theorem State.putWord_events (s : State) (a : Address) (v : Word) : (s.putWord a v).events = s.events := rfl
@[simp] theorem State.putWord_requests (s : State) (a : Address) (v : Word) : (s.putWord a v).requests = s.requests := rfl
@[simp] theorem State.putWord_portAnswers (s : State) (a : Address) (v : Word) : (s.putWord a v).portAnswers = s.portAnswers := rfl
@[simp] theorem State.putWord_freeIndex (s : State) (a : Address) (v : Word) : (s.putWord a v).freeIndex = s.freeIndex := rfl
@[simp] theorem State.putWord_repeating (s : State) (a : Address) (v : Word) : (s.putWord a v).repeating = s.repeating := rfl
@[simp] theorem State.putWord_segmented (s : State) (a : Address) (v : Word) : (s.putWord a v).segmented = s.segmented := rfl
@[simp] theorem State.putWord_phys (s : State) (a : Address) (v : Word) (m : RegCode) : (s.putWord a v).phys m = s.phys m := rfl
@[simp] theorem State.putWord_key (s : State) (a : Address) (v : Word) (b : Address) : (s.putWord a v).key b = s.key b := rfl
@[simp] theorem State.putWord_reg (s : State) (a : Address) (v : Word) (m : RegCode) : (s.putWord a v).reg m = s.reg m := rfl

/-! ### putLong -/

@[simp] theorem State.putLong_cfg (s : State) (a : Address) (v : Long) : (s.putLong a v).cfg = s.cfg := rfl
@[simp] theorem State.putLong_gr (s : State) (a : Address) (v : Long) : (s.putLong a v).gr = s.gr := rfl
@[simp] theorem State.putLong_pcSeg (s : State) (a : Address) (v : Long) : (s.putLong a v).pcSeg = s.pcSeg := rfl
@[simp] theorem State.putLong_pcOff (s : State) (a : Address) (v : Long) : (s.putLong a v).pcOff = s.pcOff := rfl
@[simp] theorem State.putLong_fcw (s : State) (a : Address) (v : Long) : (s.putLong a v).fcw = s.fcw := rfl
@[simp] theorem State.putLong_psapSeg (s : State) (a : Address) (v : Long) : (s.putLong a v).psapSeg = s.psapSeg := rfl
@[simp] theorem State.putLong_psapOff (s : State) (a : Address) (v : Long) : (s.putLong a v).psapOff = s.psapOff := rfl
@[simp] theorem State.putLong_refresh (s : State) (a : Address) (v : Long) : (s.putLong a v).refresh = s.refresh := rfl
@[simp] theorem State.putLong_halted (s : State) (a : Address) (v : Long) : (s.putLong a v).halted = s.halted := rfl
@[simp] theorem State.putLong_multiMicroOut (s : State) (a : Address) (v : Long) : (s.putLong a v).multiMicroOut = s.multiMicroOut := rfl
@[simp] theorem State.putLong_events (s : State) (a : Address) (v : Long) : (s.putLong a v).events = s.events := rfl
@[simp] theorem State.putLong_requests (s : State) (a : Address) (v : Long) : (s.putLong a v).requests = s.requests := rfl
@[simp] theorem State.putLong_portAnswers (s : State) (a : Address) (v : Long) : (s.putLong a v).portAnswers = s.portAnswers := rfl
@[simp] theorem State.putLong_freeIndex (s : State) (a : Address) (v : Long) : (s.putLong a v).freeIndex = s.freeIndex := rfl
@[simp] theorem State.putLong_repeating (s : State) (a : Address) (v : Long) : (s.putLong a v).repeating = s.repeating := rfl
@[simp] theorem State.putLong_segmented (s : State) (a : Address) (v : Long) : (s.putLong a v).segmented = s.segmented := rfl
@[simp] theorem State.putLong_phys (s : State) (a : Address) (v : Long) (m : RegCode) : (s.putLong a v).phys m = s.phys m := rfl
@[simp] theorem State.putLong_key (s : State) (a : Address) (v : Long) (b : Address) : (s.putLong a v).key b = s.key b := rfl
@[simp] theorem State.putLong_reg (s : State) (a : Address) (v : Long) (m : RegCode) : (s.putLong a v).reg m = s.reg m := rfl

/-! ### drawn -/

@[simp] theorem State.drawn_cfg (s : State) : (s.drawn).cfg = s.cfg := rfl
@[simp] theorem State.drawn_gr (s : State) : (s.drawn).gr = s.gr := rfl
@[simp] theorem State.drawn_pcSeg (s : State) : (s.drawn).pcSeg = s.pcSeg := rfl
@[simp] theorem State.drawn_pcOff (s : State) : (s.drawn).pcOff = s.pcOff := rfl
@[simp] theorem State.drawn_fcw (s : State) : (s.drawn).fcw = s.fcw := rfl
@[simp] theorem State.drawn_psapSeg (s : State) : (s.drawn).psapSeg = s.psapSeg := rfl
@[simp] theorem State.drawn_psapOff (s : State) : (s.drawn).psapOff = s.psapOff := rfl
@[simp] theorem State.drawn_refresh (s : State) : (s.drawn).refresh = s.refresh := rfl
@[simp] theorem State.drawn_halted (s : State) : (s.drawn).halted = s.halted := rfl
@[simp] theorem State.drawn_mem (s : State) : (s.drawn).mem = s.mem := rfl
@[simp] theorem State.drawn_multiMicroOut (s : State) : (s.drawn).multiMicroOut = s.multiMicroOut := rfl
@[simp] theorem State.drawn_events (s : State) : (s.drawn).events = s.events := rfl
@[simp] theorem State.drawn_requests (s : State) : (s.drawn).requests = s.requests := rfl
@[simp] theorem State.drawn_portAnswers (s : State) : (s.drawn).portAnswers = s.portAnswers := rfl
@[simp] theorem State.drawn_freeIndex (s : State) : (s.drawn).freeIndex = s.freeIndex + 1 := rfl
@[simp] theorem State.drawn_stores (s : State) : (s.drawn).stores = s.stores := rfl
@[simp] theorem State.drawn_repeating (s : State) : (s.drawn).repeating = s.repeating := rfl
@[simp] theorem State.drawn_segmented (s : State) : (s.drawn).segmented = s.segmented := rfl
@[simp] theorem State.drawn_phys (s : State) (m : RegCode) : (s.drawn).phys m = s.phys m := rfl
@[simp] theorem State.drawn_key (s : State) (b : Address) : (s.drawn).key b = s.key b := rfl
@[simp] theorem State.drawn_reg (s : State) (m : RegCode) : (s.drawn).reg m = s.reg m := rfl
@[simp] theorem State.drawn_readByte (s : State) (b : Address) : (s.drawn).readByte b = s.readByte b := rfl
@[simp] theorem State.drawn_wordAt (s : State) (b : Address) : (s.drawn).wordAt b = s.wordAt b := rfl
@[simp] theorem State.drawn_longAt (s : State) (b : Address) : (s.drawn).longAt b = s.longAt b := rfl

/-! ### movePc -/

@[simp] theorem State.movePc_cfg (s : State) (x : Word) : (s.movePc x).cfg = s.cfg := rfl
@[simp] theorem State.movePc_gr (s : State) (x : Word) : (s.movePc x).gr = s.gr := rfl
@[simp] theorem State.movePc_pcSeg (s : State) (x : Word) : (s.movePc x).pcSeg = s.pcSeg := rfl
@[simp] theorem State.movePc_pcOff (s : State) (x : Word) : (s.movePc x).pcOff = x := rfl
@[simp] theorem State.movePc_fcw (s : State) (x : Word) : (s.movePc x).fcw = s.fcw := rfl
@[simp] theorem State.movePc_psapSeg (s : State) (x : Word) : (s.movePc x).psapSeg = s.psapSeg := rfl
@[simp] theorem State.movePc_psapOff (s : State) (x : Word) : (s.movePc x).psapOff = s.psapOff := rfl
@[simp] theorem State.movePc_refresh (s : State) (x : Word) : (s.movePc x).refresh = s.refresh := rfl
@[simp] theorem State.movePc_halted (s : State) (x : Word) : (s.movePc x).halted = s.halted := rfl
@[simp] theorem State.movePc_mem (s : State) (x : Word) : (s.movePc x).mem = s.mem := rfl
@[simp] theorem State.movePc_multiMicroOut (s : State) (x : Word) : (s.movePc x).multiMicroOut = s.multiMicroOut := rfl
@[simp] theorem State.movePc_events (s : State) (x : Word) : (s.movePc x).events = s.events := rfl
@[simp] theorem State.movePc_requests (s : State) (x : Word) : (s.movePc x).requests = s.requests := rfl
@[simp] theorem State.movePc_portAnswers (s : State) (x : Word) : (s.movePc x).portAnswers = s.portAnswers := rfl
@[simp] theorem State.movePc_freeIndex (s : State) (x : Word) : (s.movePc x).freeIndex = s.freeIndex := rfl
@[simp] theorem State.movePc_stores (s : State) (x : Word) : (s.movePc x).stores = s.stores := rfl
@[simp] theorem State.movePc_repeating (s : State) (x : Word) : (s.movePc x).repeating = s.repeating := rfl
@[simp] theorem State.movePc_segmented (s : State) (x : Word) : (s.movePc x).segmented = s.segmented := rfl
@[simp] theorem State.movePc_phys (s : State) (x : Word) (m : RegCode) : (s.movePc x).phys m = s.phys m := rfl
@[simp] theorem State.movePc_key (s : State) (x : Word) (b : Address) : (s.movePc x).key b = s.key b := rfl
@[simp] theorem State.movePc_reg (s : State) (x : Word) (m : RegCode) : (s.movePc x).reg m = s.reg m := rfl
@[simp] theorem State.movePc_readByte (s : State) (x : Word) (b : Address) : (s.movePc x).readByte b = s.readByte b := rfl
@[simp] theorem State.movePc_wordAt (s : State) (x : Word) (b : Address) : (s.movePc x).wordAt b = s.wordAt b := rfl
@[simp] theorem State.movePc_longAt (s : State) (x : Word) (b : Address) : (s.movePc x).longAt b = s.longAt b := rfl

/-! ### emit -/

@[simp] theorem State.emit_cfg (s : State) (e : OutEvent) : (s.emit e).cfg = s.cfg := rfl
@[simp] theorem State.emit_gr (s : State) (e : OutEvent) : (s.emit e).gr = s.gr := rfl
@[simp] theorem State.emit_pcSeg (s : State) (e : OutEvent) : (s.emit e).pcSeg = s.pcSeg := rfl
@[simp] theorem State.emit_pcOff (s : State) (e : OutEvent) : (s.emit e).pcOff = s.pcOff := rfl
@[simp] theorem State.emit_fcw (s : State) (e : OutEvent) : (s.emit e).fcw = s.fcw := rfl
@[simp] theorem State.emit_psapSeg (s : State) (e : OutEvent) : (s.emit e).psapSeg = s.psapSeg := rfl
@[simp] theorem State.emit_psapOff (s : State) (e : OutEvent) : (s.emit e).psapOff = s.psapOff := rfl
@[simp] theorem State.emit_refresh (s : State) (e : OutEvent) : (s.emit e).refresh = s.refresh := rfl
@[simp] theorem State.emit_halted (s : State) (e : OutEvent) : (s.emit e).halted = s.halted := rfl
@[simp] theorem State.emit_mem (s : State) (e : OutEvent) : (s.emit e).mem = s.mem := rfl
@[simp] theorem State.emit_multiMicroOut (s : State) (e : OutEvent) : (s.emit e).multiMicroOut = s.multiMicroOut := rfl
@[simp] theorem State.emit_events (s : State) (e : OutEvent) : (s.emit e).events = s.events ++ [e] := rfl
@[simp] theorem State.emit_requests (s : State) (e : OutEvent) : (s.emit e).requests = s.requests := rfl
@[simp] theorem State.emit_portAnswers (s : State) (e : OutEvent) : (s.emit e).portAnswers = s.portAnswers := rfl
@[simp] theorem State.emit_freeIndex (s : State) (e : OutEvent) : (s.emit e).freeIndex = s.freeIndex := rfl
@[simp] theorem State.emit_stores (s : State) (e : OutEvent) : (s.emit e).stores = s.stores := rfl
@[simp] theorem State.emit_repeating (s : State) (e : OutEvent) : (s.emit e).repeating = s.repeating := rfl
@[simp] theorem State.emit_segmented (s : State) (e : OutEvent) : (s.emit e).segmented = s.segmented := rfl
@[simp] theorem State.emit_phys (s : State) (e : OutEvent) (m : RegCode) : (s.emit e).phys m = s.phys m := rfl
@[simp] theorem State.emit_key (s : State) (e : OutEvent) (b : Address) : (s.emit e).key b = s.key b := rfl
@[simp] theorem State.emit_reg (s : State) (e : OutEvent) (m : RegCode) : (s.emit e).reg m = s.reg m := rfl
@[simp] theorem State.emit_readByte (s : State) (e : OutEvent) (b : Address) : (s.emit e).readByte b = s.readByte b := rfl
@[simp] theorem State.emit_wordAt (s : State) (e : OutEvent) (b : Address) : (s.emit e).wordAt b = s.wordAt b := rfl
@[simp] theorem State.emit_longAt (s : State) (e : OutEvent) (b : Address) : (s.emit e).longAt b = s.longAt b := rfl

/-! ### setMultiMicro -/

@[simp] theorem State.setMultiMicro_cfg (s : State) (x : Bool) : (s.setMultiMicro x).cfg = s.cfg := rfl
@[simp] theorem State.setMultiMicro_gr (s : State) (x : Bool) : (s.setMultiMicro x).gr = s.gr := rfl
@[simp] theorem State.setMultiMicro_pcSeg (s : State) (x : Bool) : (s.setMultiMicro x).pcSeg = s.pcSeg := rfl
@[simp] theorem State.setMultiMicro_pcOff (s : State) (x : Bool) : (s.setMultiMicro x).pcOff = s.pcOff := rfl
@[simp] theorem State.setMultiMicro_fcw (s : State) (x : Bool) : (s.setMultiMicro x).fcw = s.fcw := rfl
@[simp] theorem State.setMultiMicro_psapSeg (s : State) (x : Bool) : (s.setMultiMicro x).psapSeg = s.psapSeg := rfl
@[simp] theorem State.setMultiMicro_psapOff (s : State) (x : Bool) : (s.setMultiMicro x).psapOff = s.psapOff := rfl
@[simp] theorem State.setMultiMicro_refresh (s : State) (x : Bool) : (s.setMultiMicro x).refresh = s.refresh := rfl
@[simp] theorem State.setMultiMicro_halted (s : State) (x : Bool) : (s.setMultiMicro x).halted = s.halted := rfl
@[simp] theorem State.setMultiMicro_mem (s : State) (x : Bool) : (s.setMultiMicro x).mem = s.mem := rfl
@[simp] theorem State.setMultiMicro_multiMicroOut (s : State) (x : Bool) : (s.setMultiMicro x).multiMicroOut = x := rfl
@[simp] theorem State.setMultiMicro_events (s : State) (x : Bool) : (s.setMultiMicro x).events = s.events ++ [.multiMicro x] := rfl
@[simp] theorem State.setMultiMicro_requests (s : State) (x : Bool) : (s.setMultiMicro x).requests = s.requests := rfl
@[simp] theorem State.setMultiMicro_portAnswers (s : State) (x : Bool) : (s.setMultiMicro x).portAnswers = s.portAnswers := rfl
@[simp] theorem State.setMultiMicro_freeIndex (s : State) (x : Bool) : (s.setMultiMicro x).freeIndex = s.freeIndex := rfl
@[simp] theorem State.setMultiMicro_stores (s : State) (x : Bool) : (s.setMultiMicro x).stores = s.stores := rfl
@[simp] theorem State.setMultiMicro_repeating (s : State) (x : Bool) : (s.setMultiMicro x).repeating = s.repeating := rfl
@[simp] theorem State.setMultiMicro_segmented (s : State) (x : Bool) : (s.setMultiMicro x).segmented = s.segmented := rfl
@[simp] theorem State.setMultiMicro_phys (s : State) (x : Bool) (m : RegCode) : (s.setMultiMicro x).phys m = s.phys m := rfl
@[simp] theorem State.setMultiMicro_key (s : State) (x : Bool) (b : Address) : (s.setMultiMicro x).key b = s.key b := rfl
@[simp] theorem State.setMultiMicro_reg (s : State) (x : Bool) (m : RegCode) : (s.setMultiMicro x).reg m = s.reg m := rfl
@[simp] theorem State.setMultiMicro_readByte (s : State) (x : Bool) (b : Address) : (s.setMultiMicro x).readByte b = s.readByte b := rfl
@[simp] theorem State.setMultiMicro_wordAt (s : State) (x : Bool) (b : Address) : (s.setMultiMicro x).wordAt b = s.wordAt b := rfl
@[simp] theorem State.setMultiMicro_longAt (s : State) (x : Bool) (b : Address) : (s.setMultiMicro x).longAt b = s.longAt b := rfl

/-! ### countDown -/

@[simp] theorem State.countDown_cfg (s : State) (n : RegCode) : (s.countDown n).cfg = s.cfg := rfl
@[simp] theorem State.countDown_pcSeg (s : State) (n : RegCode) : (s.countDown n).pcSeg = s.pcSeg := rfl
@[simp] theorem State.countDown_pcOff (s : State) (n : RegCode) : (s.countDown n).pcOff = s.pcOff := rfl
@[simp] theorem State.countDown_fcw (s : State) (n : RegCode) : (s.countDown n).fcw = s.fcw := rfl
@[simp] theorem State.countDown_psapSeg (s : State) (n : RegCode) : (s.countDown n).psapSeg = s.psapSeg := rfl
@[simp] theorem State.countDown_psapOff (s : State) (n : RegCode) : (s.countDown n).psapOff = s.psapOff := rfl
@[simp] theorem State.countDown_refresh (s : State) (n : RegCode) : (s.countDown n).refresh = s.refresh := rfl
@[simp] theorem State.countDown_halted (s : State) (n : RegCode) : (s.countDown n).halted = s.halted := rfl
@[simp] theorem State.countDown_mem (s : State) (n : RegCode) : (s.countDown n).mem = s.mem := rfl
@[simp] theorem State.countDown_multiMicroOut (s : State) (n : RegCode) : (s.countDown n).multiMicroOut = s.multiMicroOut := rfl
@[simp] theorem State.countDown_events (s : State) (n : RegCode) : (s.countDown n).events = s.events := rfl
@[simp] theorem State.countDown_requests (s : State) (n : RegCode) : (s.countDown n).requests = s.requests := rfl
@[simp] theorem State.countDown_portAnswers (s : State) (n : RegCode) : (s.countDown n).portAnswers = s.portAnswers := rfl
@[simp] theorem State.countDown_freeIndex (s : State) (n : RegCode) : (s.countDown n).freeIndex = s.freeIndex := rfl
@[simp] theorem State.countDown_stores (s : State) (n : RegCode) : (s.countDown n).stores = s.stores := rfl
@[simp] theorem State.countDown_repeating (s : State) (n : RegCode) : (s.countDown n).repeating = s.repeating := rfl
@[simp] theorem State.countDown_segmented (s : State) (n : RegCode) : (s.countDown n).segmented = s.segmented := rfl
@[simp] theorem State.countDown_phys (s : State) (n : RegCode) (m : RegCode) : (s.countDown n).phys m = s.phys m := rfl
@[simp] theorem State.countDown_key (s : State) (n : RegCode) (b : Address) : (s.countDown n).key b = s.key b := rfl
@[simp] theorem State.countDown_readByte (s : State) (n : RegCode) (b : Address) : (s.countDown n).readByte b = s.readByte b := rfl
@[simp] theorem State.countDown_wordAt (s : State) (n : RegCode) (b : Address) : (s.countDown n).wordAt b = s.wordAt b := rfl
@[simp] theorem State.countDown_longAt (s : State) (n : RegCode) (b : Address) : (s.countDown n).longAt b = s.longAt b := rfl

/-! ### advanced -/

@[simp] theorem State.advanced_cfg (s : State) (k : Nat) : (s.advanced k).cfg = s.cfg := rfl
@[simp] theorem State.advanced_gr (s : State) (k : Nat) : (s.advanced k).gr = s.gr := rfl
@[simp] theorem State.advanced_pcSeg (s : State) (k : Nat) : (s.advanced k).pcSeg = s.pcSeg := rfl
@[simp] theorem State.advanced_pcOff (s : State) (k : Nat) : (s.advanced k).pcOff = s.pcOff + 2 * BitVec.ofNat 16 k := rfl
@[simp] theorem State.advanced_fcw (s : State) (k : Nat) : (s.advanced k).fcw = s.fcw := rfl
@[simp] theorem State.advanced_psapSeg (s : State) (k : Nat) : (s.advanced k).psapSeg = s.psapSeg := rfl
@[simp] theorem State.advanced_psapOff (s : State) (k : Nat) : (s.advanced k).psapOff = s.psapOff := rfl
@[simp] theorem State.advanced_refresh (s : State) (k : Nat) : (s.advanced k).refresh = s.refresh := rfl
@[simp] theorem State.advanced_halted (s : State) (k : Nat) : (s.advanced k).halted = s.halted := rfl
@[simp] theorem State.advanced_mem (s : State) (k : Nat) : (s.advanced k).mem = s.mem := rfl
@[simp] theorem State.advanced_multiMicroOut (s : State) (k : Nat) : (s.advanced k).multiMicroOut = s.multiMicroOut := rfl
@[simp] theorem State.advanced_events (s : State) (k : Nat) : (s.advanced k).events = s.events := rfl
@[simp] theorem State.advanced_requests (s : State) (k : Nat) : (s.advanced k).requests = s.requests := rfl
@[simp] theorem State.advanced_portAnswers (s : State) (k : Nat) : (s.advanced k).portAnswers = s.portAnswers := rfl
@[simp] theorem State.advanced_freeIndex (s : State) (k : Nat) : (s.advanced k).freeIndex = s.freeIndex := rfl
@[simp] theorem State.advanced_stores (s : State) (k : Nat) : (s.advanced k).stores = if s.repeating then s.stores else [] := rfl
@[simp] theorem State.advanced_repeating (s : State) (k : Nat) : (s.advanced k).repeating = false := rfl
@[simp] theorem State.advanced_segmented (s : State) (k : Nat) : (s.advanced k).segmented = s.segmented := rfl
@[simp] theorem State.advanced_phys (s : State) (k : Nat) (m : RegCode) : (s.advanced k).phys m = s.phys m := rfl
@[simp] theorem State.advanced_key (s : State) (k : Nat) (b : Address) : (s.advanced k).key b = s.key b := rfl
@[simp] theorem State.advanced_reg (s : State) (k : Nat) (m : RegCode) : (s.advanced k).reg m = s.reg m := rfl
@[simp] theorem State.advanced_readByte (s : State) (k : Nat) (b : Address) : (s.advanced k).readByte b = s.readByte b := rfl
@[simp] theorem State.advanced_wordAt (s : State) (k : Nat) (b : Address) : (s.advanced k).wordAt b = s.wordAt b := rfl
@[simp] theorem State.advanced_longAt (s : State) (k : Nat) (b : Address) : (s.advanced k).longAt b = s.longAt b := rfl

/-! ### goBack -/

@[simp] theorem State.goBack_cfg (s : State) : (s.goBack).cfg = s.cfg := rfl
@[simp] theorem State.goBack_gr (s : State) : (s.goBack).gr = s.gr := rfl
@[simp] theorem State.goBack_pcSeg (s : State) : (s.goBack).pcSeg = s.pcSeg := rfl
@[simp] theorem State.goBack_pcOff (s : State) : (s.goBack).pcOff = s.pcOff - 4 := rfl
@[simp] theorem State.goBack_fcw (s : State) : (s.goBack).fcw = s.fcw := rfl
@[simp] theorem State.goBack_psapSeg (s : State) : (s.goBack).psapSeg = s.psapSeg := rfl
@[simp] theorem State.goBack_psapOff (s : State) : (s.goBack).psapOff = s.psapOff := rfl
@[simp] theorem State.goBack_refresh (s : State) : (s.goBack).refresh = s.refresh := rfl
@[simp] theorem State.goBack_halted (s : State) : (s.goBack).halted = s.halted := rfl
@[simp] theorem State.goBack_mem (s : State) : (s.goBack).mem = s.mem := rfl
@[simp] theorem State.goBack_multiMicroOut (s : State) : (s.goBack).multiMicroOut = s.multiMicroOut := rfl
@[simp] theorem State.goBack_events (s : State) : (s.goBack).events = s.events := rfl
@[simp] theorem State.goBack_requests (s : State) : (s.goBack).requests = s.requests := rfl
@[simp] theorem State.goBack_portAnswers (s : State) : (s.goBack).portAnswers = s.portAnswers := rfl
@[simp] theorem State.goBack_freeIndex (s : State) : (s.goBack).freeIndex = s.freeIndex := rfl
@[simp] theorem State.goBack_stores (s : State) : (s.goBack).stores = s.stores := rfl
@[simp] theorem State.goBack_repeating (s : State) : (s.goBack).repeating = true := rfl
@[simp] theorem State.goBack_segmented (s : State) : (s.goBack).segmented = s.segmented := rfl
@[simp] theorem State.goBack_phys (s : State) (m : RegCode) : (s.goBack).phys m = s.phys m := rfl
@[simp] theorem State.goBack_key (s : State) (b : Address) : (s.goBack).key b = s.key b := rfl
@[simp] theorem State.goBack_reg (s : State) (m : RegCode) : (s.goBack).reg m = s.reg m := rfl
@[simp] theorem State.goBack_readByte (s : State) (b : Address) : (s.goBack).readByte b = s.readByte b := rfl
@[simp] theorem State.goBack_wordAt (s : State) (b : Address) : (s.goBack).wordAt b = s.wordAt b := rfl
@[simp] theorem State.goBack_longAt (s : State) (b : Address) : (s.goBack).longAt b = s.longAt b := rfl

end Sys2Proof.Machine
end

