-- ==== Sys2Proof/Laws/Memory.lean ====
section
/-! SUPPORT. Reading after writing, the canonical form, and the addresses of bytes. -/

namespace Sys2Proof.Machine

/-! ### One byte of a memory -/

theorem Memory.read_write_ne (m : Memory) (k j : Nat) (v : Byte) (h : j ≠ k) : (m.write k v).read j = m.read j := by
  induction m with
  | nil => by_cases hv : v = unlistedByte <;> simp [Memory.write, Memory.read, hv, h]
  | cons c m ih =>
    obtain ⟨k', v'⟩ := c
    simp only [Memory.write]
    split
    · split <;> simp [Memory.read, h]
    · split
      · subst_vars
        split <;> simp [Memory.read, h]
      · simp [Memory.read, ih]

/-- An address below every listed one reads as unlisted. -/
theorem Memory.read_below (m : Memory) (k : Nat) (h : m.all (fun c => decide (k < c.1)) = true) : m.read k = unlistedByte := by
  induction m with
  | nil => rfl
  | cons c m ih =>
    obtain ⟨k', v'⟩ := c
    simp only [List.all_cons, Bool.and_eq_true, decide_eq_true_eq] at h
    simp [Memory.read, Nat.ne_of_lt h.1, ih h.2]

theorem Memory.all_lt_of_lt (m : Memory) (k k' : Nat) (hk : k < k') (h : m.all (fun c => decide (k' < c.1)) = true) :
    m.all (fun c => decide (k < c.1)) = true := by
  simp only [List.all_eq_true, decide_eq_true_eq] at h ⊢
  exact fun c hc => Nat.lt_trans hk (h c hc)

theorem Memory.read_write_same (m : Memory) (k : Nat) (v : Byte) (h : m.wf = true) : (m.write k v).read k = v := by
  induction m with
  | nil => by_cases hv : v = unlistedByte <;> simp [Memory.write, Memory.read, hv]
  | cons c m ih =>
    obtain ⟨k', v'⟩ := c
    simp only [Memory.wf, Bool.and_eq_true] at h
    simp only [Memory.write]
    split
    · rename_i hk
      split
      · rename_i hv
        rw [hv]
        simp [Memory.read, Nat.ne_of_lt hk, Memory.read_below m k (Memory.all_lt_of_lt m k k' hk h.1.2)]
      · simp [Memory.read]
    · split
      · rename_i hk
        subst hk
        split
        · rename_i hv
          rw [hv, Memory.read_below m k h.1.2]
        · simp [Memory.read]
      · rename_i hk
        simp [Memory.read, hk, ih h.2]

/-- Every listed address after a write was listed or is the one written. -/
theorem Memory.all_write (m : Memory) (k : Nat) (v : Byte) (p : Nat → Bool) (hk : p k = true) (h : m.all (fun c => p c.1) = true) :
    (m.write k v).all (fun c => p c.1) = true := by
  induction m with
  | nil => by_cases hv : v = unlistedByte <;> simp [Memory.write, hv, hk]
  | cons c m ih =>
    obtain ⟨k', v'⟩ := c
    simp only [List.all_cons, Bool.and_eq_true] at h
    simp only [Memory.write]
    split
    · split <;> simp [h.1, h.2, hk]
    · split
      · split <;> simp [h.2, hk]
      · simp [h.1, ih h.2]

theorem Memory.wf_write (m : Memory) (k : Nat) (v : Byte) (h : m.wf = true) : (m.write k v).wf = true := by
  induction m with
  | nil => by_cases hv : v = unlistedByte <;> simp [Memory.write, Memory.wf, hv]
  | cons c m ih =>
    obtain ⟨k', v'⟩ := c
    have h0 := h
    simp only [Memory.wf, Bool.and_eq_true] at h
    simp only [Memory.write]
    split
    · rename_i hk
      split
      · exact h0
      · rename_i hv
        simp [Memory.wf, hv, hk, h.1.1, h.1.2, h.2, Memory.all_lt_of_lt m k k' hk h.1.2]
    · split
      · rename_i hk
        subst hk
        split
        · exact h.2
        · rename_i hv
          simp [Memory.wf, hv, h.1.2, h.2]
      · rename_i h1 h2
        have hlt : k' < k := by omega
        simp only [Memory.wf, Bool.and_eq_true]
        exact ⟨⟨h.1.1, Memory.all_write m k v (fun x => decide (k' < x)) (by simpa using hlt) h.1.2⟩, ih h.2⟩

/-! ### Addresses of bytes -/

@[simp] theorem Address.plus_seg (a : Address) (k : Word) : (a.plus k).seg = a.seg := rfl
@[simp] theorem Address.plus_off (a : Address) (k : Word) : (a.plus k).off = a.off + k := rfl
@[simp] theorem Address.plus_plus (a : Address) (j k : Word) : (a.plus j).plus k = a.plus (j + k) := by
  simp [Address.plus, BitVec.add_assoc]
@[simp] theorem Address.plus_zero (a : Address) : a.plus 0#16 = a := by simp [Address.plus]

theorem State.key_off (s : State) (a b : Address) (h : s.key a = s.key b) : a.off = b.off := by
  unfold State.key at h
  cases hv : s.cfg.variant <;> simp only [hv] at h
  · have := BitVec.eq_of_toNat_eq h
    have h2 := congrArg (BitVec.extractLsb' 0 16) this
    rwa [append_low, append_low] at h2
  · exact BitVec.eq_of_toNat_eq h

/-- Two bytes at different distances from one address are different bytes. -/
theorem State.key_plus_ne (s : State) (a : Address) (j k : Word) (h : j ≠ k) : s.key (a.plus j) ≠ s.key (a.plus k) := by
  intro e
  have := s.key_off _ _ e
  simp only [Address.plus_off] at this
  exact h (by bv_omega)

theorem State.key_lt (s : State) (a : Address) : s.key a < 2 ^ 23 := by
  unfold State.key
  cases s.cfg.variant
  · exact (a.seg ++ a.off).isLt
  · have := a.off.isLt
    simp only
    omega

theorem State.key_congr (s t : State) (h : t.cfg = s.cfg) : t.key = s.key := by
  funext a
  simp [State.key, h]

/-! ### Reading bytes after stores -/

theorem State.readByte_writeByte_ne (s : State) (a b : Address) (v : Byte) (h : s.key b ≠ s.key a) :
    (s.writeByte a v).readByte b = s.readByte b := Memory.read_write_ne s.mem _ _ v h

theorem State.readByte_writeByte_same (s : State) (a : Address) (v : Byte) (h : s.mem.wf = true) :
    (s.writeByte a v).readByte a = v := Memory.read_write_same s.mem _ v h

theorem State.wf_writeByte (s : State) (a : Address) (v : Byte) (h : s.mem.wf = true) : (s.writeByte a v).mem.wf = true :=
  Memory.wf_write s.mem _ v h

theorem State.wf_putWord (s : State) (a : Address) (v : Word) (h : s.mem.wf = true) : (s.putWord a v).mem.wf = true :=
  State.wf_writeByte _ _ _ (State.wf_writeByte _ _ _ h)

theorem State.wf_putLong (s : State) (a : Address) (v : Long) (h : s.mem.wf = true) : (s.putLong a v).mem.wf = true :=
  State.wf_putWord _ _ _ (State.wf_putWord _ _ _ h)

theorem State.readByte_putWord_ne (s : State) (a b : Address) (v : Word) (h0 : s.key b ≠ s.key a) (h1 : s.key b ≠ s.key (a.plus 1)) :
    (s.putWord a v).readByte b = s.readByte b := by
  unfold State.putWord
  rw [State.readByte_writeByte_ne _ _ _ _ (by simpa using h1), State.readByte_writeByte_ne _ _ _ _ h0]

theorem State.wordAt_putWord_same (s : State) (a : Address) (v : Word) (h : s.mem.wf = true) : (s.putWord a v).wordAt a = v := by
  unfold State.wordAt State.putWord
  rw [State.readByte_writeByte_same _ _ _ (State.wf_writeByte _ _ _ h),
    State.readByte_writeByte_ne _ _ _ _ (by simpa using s.key_plus_ne a 0 1 (by decide)), State.readByte_writeByte_same _ _ _ h]
  exact hiByte_loByte v

end Sys2Proof.Machine
end

