-- ==== Sys2Proof/Laws/Ops.lean ====
section
/-! SUPPORT. What each shared operation can do, said once: `Change s t regs keys` when only registers `regs`, the bytes at `keys`, which
are added to the note of stores, and the free values differ between s and t. -/

namespace Sys2Proof.Machine

/-! ### Computations that can be refused -/

theorem bind_ok {ε α β : Type} {x : Except ε α} {f : α → Except ε β} {b : β} :
    (x >>= f) = .ok b ↔ ∃ a, x = .ok a ∧ f a = .ok b := by
  cases x with
  | error e => constructor
               · intro h; cases h
               · rintro ⟨a, h, _⟩; cases h
  | ok a => constructor
            · intro h; exact ⟨a, rfl, h⟩
            · rintro ⟨a', h, h'⟩; cases h; exact h'

@[simp] theorem bind_of_ok {ε α β : Type} (a : α) (f : α → Except ε β) : ((Except.ok a : Except ε α) >>= f) = f a := rfl
@[simp] theorem bind_of_error {ε α β : Type} (e : ε) (f : α → Except ε β) : ((Except.error e : Except ε α) >>= f) = .error e := rfl

theorem finish_next {x : Except Refusal State} {t : State} : finish x = .next t ↔ x = .ok t := by
  cases x <;> simp [finish]

@[simp] theorem finish_ok (t : State) : finish (.ok t) = .next t := rfl
@[simp] theorem finish_error (r : Refusal) : finish (.error r) = .refused r := rfl

theorem needPair_ok {n : RegCode} {u : Unit} : needPair n = .ok u ↔ n.getLsbD 0 = false := by
  unfold needPair; split <;> simp_all

theorem needQuad_ok {n : RegCode} {u : Unit} : needQuad n = .ok u ↔ n.getLsbD 0 = false ∧ n.getLsbD 1 = false := by
  unfold needQuad; cases n.getLsbD 0 <;> cases n.getLsbD 1 <;> simp

theorem needEven_ok {a : Address} {u : Unit} : needEven a = .ok u ↔ a.off.getLsbD 0 = false := by
  unfold needEven; split <;> simp_all

/-! ### Registers -/

theorem State.phys_congr {s t : State} (hc : t.cfg = s.cfg) (hf : t.fcw.sn = s.fcw.sn) (n : RegCode) : t.phys n = s.phys n := by
  simp [State.phys, hc, hf]

theorem State.phys_inj (s : State) (m n : RegCode) : s.phys m = s.phys n ↔ m = n := by
  constructor
  · unfold State.phys
    generalize s.fcw.sn = b
    generalize s.cfg.variant = v
    revert m n
    cases b <;> cases v <;> decide
  · rintro rfl; rfl

theorem getElem_set_fin (v : Vector Word 18) (i j : Fin 18) (x : Word) : (v.set i x)[j] = if j = i then x else v[j] := by
  by_cases h : j = i
  · subst h; simp
  · have : (i : Nat) ≠ j := fun e => h (Fin.ext e.symm)
    simp [h, Vector.getElem_set_ne, this]

theorem State.reg_setReg (s : State) (n m : RegCode) (v : Word) : (s.setReg n v).reg m = if m = n then v else s.reg m := by
  simp only [State.reg, State.setReg_phys, State.setReg_gr, getElem_set_fin, s.phys_inj]

@[simp] theorem State.reg_setReg_same (s : State) (n : RegCode) (v : Word) : (s.setReg n v).reg n = v := by simp [State.reg_setReg]

theorem State.setReg_gr_ne (s : State) (n : RegCode) (v : Word) (j : Fin 18) (h : j ≠ s.phys n) : (s.setReg n v).gr[j] = s.gr[j] :=
  (getElem_set_fin ..).trans (if_neg h)

/-! ### Change -/

/-- Only the registers `regs`, the bytes `keys` and the count of free values differ, and the note of stores by exactly these bytes; a
canonical memory of existing addresses stays one. -/
structure Change (s t : State) (regs : List (Fin 18)) (keys : List Nat) : Prop where
  cfg : t.cfg = s.cfg
  pcSeg : t.pcSeg = s.pcSeg
  pcOff : t.pcOff = s.pcOff
  fcw : t.fcw = s.fcw
  psapSeg : t.psapSeg = s.psapSeg
  psapOff : t.psapOff = s.psapOff
  refresh : t.refresh = s.refresh
  halted : t.halted = s.halted
  multiMicroOut : t.multiMicroOut = s.multiMicroOut
  events : t.events = s.events
  requests : t.requests = s.requests
  portAnswers : t.portAnswers = s.portAnswers
  repeating : t.repeating = s.repeating
  stores : ∀ k, k ∈ t.stores ↔ k ∈ s.stores ∨ k ∈ keys
  gr : ∀ j, j ∉ regs → t.gr[j] = s.gr[j]
  mem : ∀ k, k ∉ keys → t.mem.read k = s.mem.read k
  memOk : s.memOk = true → t.memOk = true

theorem Change.refl (s : State) : Change s s [] [] := by
  constructor <;> intros <;> first | rfl | assumption | simp

theorem Change.trans {s t u : State} {r r' : List (Fin 18)} {k k' : List Nat} (a : Change s t r k) (b : Change t u r' k') :
    Change s u (r ++ r') (k ++ k') where
  cfg := b.cfg.trans a.cfg
  pcSeg := b.pcSeg.trans a.pcSeg
  pcOff := b.pcOff.trans a.pcOff
  fcw := b.fcw.trans a.fcw
  psapSeg := b.psapSeg.trans a.psapSeg
  psapOff := b.psapOff.trans a.psapOff
  refresh := b.refresh.trans a.refresh
  halted := b.halted.trans a.halted
  multiMicroOut := b.multiMicroOut.trans a.multiMicroOut
  events := b.events.trans a.events
  requests := b.requests.trans a.requests
  portAnswers := b.portAnswers.trans a.portAnswers
  repeating := b.repeating.trans a.repeating
  stores j := by simp only [b.stores, a.stores, List.mem_append, or_assoc]
  gr j h := by
    simp only [List.mem_append, not_or] at h
    exact (b.gr j h.2).trans (a.gr j h.1)
  mem j h := by
    simp only [List.mem_append, not_or] at h
    exact (b.mem j h.2).trans (a.mem j h.1)
  memOk h := b.memOk (a.memOk h)

theorem Change.mono {s t : State} {r r' : List (Fin 18)} {k k' : List Nat} (a : Change s t r k) (hr : ∀ j ∈ r, j ∈ r')
    (hk : ∀ j, j ∈ k ↔ j ∈ k') : Change s t r' k' :=
  { a with
    stores := fun j => by rw [a.stores, hk]
    gr := fun j h => a.gr j fun h' => h (hr j h')
    mem := fun j h => a.mem j fun h' => h ((hk j).1 h') }

theorem Change.phys {s t : State} {r : List (Fin 18)} {k : List Nat} (a : Change s t r k) (n : RegCode) : t.phys n = s.phys n :=
  State.phys_congr a.cfg (congrArg Fcw.sn a.fcw) n

theorem Change.key {s t : State} {r : List (Fin 18)} {k : List Nat} (a : Change s t r k) : t.key = s.key := State.key_congr s t a.cfg

theorem Change.segmented {s t : State} {r : List (Fin 18)} {k : List Nat} (a : Change s t r k) : t.segmented = s.segmented := by
  simp [State.segmented, a.cfg, a.fcw]

theorem Change.setReg (s : State) (n : RegCode) (v : Word) : Change s (s.setReg n v) [s.phys n] [] := by
  constructor <;> intros <;> first | rfl | assumption | (apply State.setReg_gr_ne; simp_all) | simp

theorem Change.setGr (s : State) (i : Fin 18) (v : Word) : Change s { s with gr := s.gr.set i v } [i] [] := by
  constructor <;> intros <;> first | rfl | assumption | (exact (getElem_set_fin ..).trans (if_neg (by simp_all))) | simp

theorem Change.drawn (s : State) : Change s s.drawn [] [] := by
  constructor <;> intros <;> first | rfl | assumption | simp

theorem State.memOk_writeByte (s : State) (a : Address) (v : Byte) (h : s.memOk = true) : (s.writeByte a v).memOk = true := by
  simp only [State.memOk, Bool.and_eq_true] at h ⊢
  refine ⟨Memory.wf_write _ _ _ h.1, ?_⟩
  refine Memory.all_write s.mem (s.key a) v (fun x => decide (x < addressCount s.cfg.variant)) ?_ h.2
  unfold State.key addressCount
  cases hv : s.cfg.variant <;> simp only [decide_eq_true_eq]
  · exact (a.seg ++ a.off).isLt
  · exact a.off.isLt

theorem Change.writeByte (s : State) (a : Address) (v : Byte) : Change s (s.writeByte a v) [] [s.key a] := by
  constructor <;> intros <;> try first | rfl | assumption
  · simp [or_comm]
  · exact Memory.read_write_ne _ _ _ _ (by simp_all)
  · exact State.memOk_writeByte s a v (by assumption)

theorem Change.setRb (s : State) (c : RegCode) (v : Byte) : Change s (s.setRb c v) [s.phys (byteHome c)] [] := Change.setReg _ _ _

theorem Change.setRr (s : State) (n : RegCode) (v : Long) : Change s (s.setRr n v) [s.phys n, s.phys (n + 1)] [] :=
  ((Change.setReg s n _).trans (Change.setReg _ (n + 1) _)).mono (by simp) (by simp)

theorem Change.setRq (s : State) (n : RegCode) (v : Quad) :
    Change s (s.setRq n v) [s.phys n, s.phys (n + 1), s.phys (n + 2), s.phys (n + 3)] [] :=
  ((Change.setRr s n _).trans (Change.setRr _ (n + 2) _)).mono (by simp [BitVec.add_assoc]) (by simp)

theorem Change.putWord (s : State) (a : Address) (v : Word) : Change s (s.putWord a v) [] [s.key a, s.key (a.plus 1)] :=
  ((Change.writeByte s a _).trans (Change.writeByte _ (a.plus 1) _)).mono (by simp) (by simp)

theorem Change.putLong (s : State) (a : Address) (v : Long) :
    Change s (s.putLong a v) [] [s.key a, s.key (a.plus 1), s.key (a.plus 2), s.key (a.plus 3)] :=
  ((Change.putWord s a _).trans (Change.putWord _ (a.plus 2) _)).mono (by simp) (by simp)

theorem Change.autoStep (s : State) (n : RegCode) (k : Word) : Change s (s.autoStep n k) [s.phys (s.offReg n)] [] := Change.setReg _ _ _

theorem Change.countDown (s : State) (r : RegCode) : Change s (s.countDown r) [s.phys r] [] := Change.setReg _ _ _

/-! ### Operand widths -/

/-- What the access functions of a width do: `home` are the word registers of a code, `size` is the number of bytes. -/
structure WidthSpec {n : Nat} (w : Width n) (home : RegCode → List RegCode) (size : Nat) : Prop where
  set_ok : ∀ {s r v t}, w.set s r v = .ok t → Change s t ((home r).map s.phys) []
  store_ok : ∀ {s a v t}, w.store s a v = .ok t → Change s t [] (s.keysFrom a size)

theorem keysFrom_one (s : State) (a : Address) : s.keysFrom a 1 = [s.key a] := by
  simp [State.keysFrom, List.range_succ]

theorem keysFrom_two (s : State) (a : Address) : s.keysFrom a 2 = [s.key a, s.key (a.plus 1)] := by
  simp [State.keysFrom, List.range_succ]

theorem keysFrom_four (s : State) (a : Address) :
    s.keysFrom a 4 = [s.key a, s.key (a.plus 1), s.key (a.plus 2), s.key (a.plus 3)] := by
  simp [State.keysFrom, List.range_succ]

theorem writeWord_ok {s : State} {a : Address} {v : Word} {t : State} :
    s.writeWord a v = .ok t ↔ a.off.getLsbD 0 = false ∧ s.putWord a v = t := by
  simp [State.writeWord, bind_ok, needEven_ok]

theorem writeLong_ok {s : State} {a : Address} {v : Long} {t : State} :
    s.writeLong a v = .ok t ↔ a.off.getLsbD 0 = false ∧ s.putLong a v = t := by
  simp [State.writeLong, bind_ok, needEven_ok]

theorem readWord_ok {s : State} {a : Address} {v : Word} : s.readWord a = .ok v ↔ a.off.getLsbD 0 = false ∧ s.wordAt a = v := by
  simp [State.readWord, bind_ok, needEven_ok]

theorem readLong_ok {s : State} {a : Address} {v : Long} : s.readLong a = .ok v ↔ a.off.getLsbD 0 = false ∧ s.longAt a = v := by
  simp [State.readLong, bind_ok, needEven_ok]

theorem byteSpec : WidthSpec byteWidth byteHomes 1 where
  set_ok h := by cases h; exact Change.setRb _ _ _
  store_ok h := by cases h; rw [keysFrom_one]; exact Change.writeByte _ _ _

theorem wordSpec : WidthSpec wordWidth wordHome 2 where
  set_ok h := by cases h; exact Change.setReg _ _ _
  store_ok h := by
    obtain ⟨_, rfl⟩ := writeWord_ok.1 h
    rw [keysFrom_two]; exact Change.putWord _ _ _

theorem longSpec : WidthSpec longWidth pairHome 4 where
  set_ok h := by
    simp only [longWidth, bind_ok, needPair_ok] at h
    obtain ⟨_, _, h⟩ := h
    cases h; exact Change.setRr _ _ _
  store_ok h := by
    obtain ⟨_, rfl⟩ := writeLong_ok.1 h
    rw [keysFrom_four]; exact Change.putLong _ _ _

theorem putQuad_ok {s : State} {r : RegCode} {v : Quad} {t : State} (h : s.putQuad r v = .ok t) :
    Change s t ((quadHome r).map s.phys) [] := by
  simp only [State.putQuad, bind_ok] at h
  obtain ⟨_, _, h⟩ := h
  cases h; exact Change.setRq _ _ _

/-- The keys of a destination in R, IR, DA or X mode. -/
def regMemKeys (s : State) (size : Nat) (m : RegMem) : List Nat :=
  match regMemAddr s m with
  | some (.ok a) => s.keysFrom a size
  | _ => []

theorem writeRegMem_ok {n : Nat} {w : Width n} {home : RegCode → List RegCode} {size : Nat} (W : WidthSpec w home size) {s : State}
    {m : RegMem} {v : BitVec n} {t : State} (h : writeRegMem w s m v = .ok t) :
    Change s t ((regMemHome home m).map s.phys) (regMemKeys s size m) := by
  cases m with
  | reg r => exact W.set_ok h
  | mem m =>
    simp only [writeRegMem, bind_ok] at h
    obtain ⟨a, ha, h⟩ := h
    simpa [regMemHome, regMemKeys, regMemAddr, ha] using W.store_ok h

/-! ### The stack -/

theorem pushWord_ok {s : State} {n : RegCode} {v : Word} {t : State} (h : s.pushWord n v = .ok t) :
    ∃ a, s.addrReg n = .ok a ∧ a.off.getLsbD 0 = false ∧
      t = (s.setReg (s.offReg n) (a.off - 2)).putWord (a.plus (-2)) v := by
  simp only [State.pushWord, bind_ok, writeWord_ok] at h
  obtain ⟨a, ha, he, rfl⟩ := h
  refine ⟨a, ha, ?_, ?_⟩
  · rw [Address.plus_off, getLsbD_add_even _ _ (by decide)] at he
    exact he
  · simp [BitVec.sub_eq_add_neg]

theorem pushLong_ok {s : State} {n : RegCode} {v : Long} {t : State} (h : s.pushLong n v = .ok t) :
    ∃ a, s.addrReg n = .ok a ∧ a.off.getLsbD 0 = false ∧
      t = (s.setReg (s.offReg n) (a.off - 4)).putLong (a.plus (-4)) v := by
  simp only [State.pushLong, bind_ok, writeLong_ok] at h
  obtain ⟨a, ha, he, rfl⟩ := h
  refine ⟨a, ha, ?_, ?_⟩
  · rw [Address.plus_off, getLsbD_add_even _ _ (by decide)] at he
    exact he
  · simp [BitVec.sub_eq_add_neg]

theorem popWord_ok {s : State} {n : RegCode} {v : Word} {t : State} :
    s.popWord n = .ok (v, t) ↔ ∃ a, s.addrReg n = .ok a ∧ a.off.getLsbD 0 = false ∧ v = s.wordAt a ∧
      t = s.setReg (s.offReg n) (a.off + 2) := by
  simp only [State.popWord, bind_ok, readWord_ok, Except.ok.injEq, Prod.mk.injEq, Address.plus_off]
  constructor
  · rintro ⟨a, ha, v', ⟨he, rfl⟩, rfl, rfl⟩; exact ⟨a, ha, he, rfl, rfl⟩
  · rintro ⟨a, ha, he, rfl, rfl⟩; exact ⟨a, ha, _, ⟨he, rfl⟩, rfl, rfl⟩

theorem popLong_ok {s : State} {n : RegCode} {v : Long} {t : State} :
    s.popLong n = .ok (v, t) ↔ ∃ a, s.addrReg n = .ok a ∧ a.off.getLsbD 0 = false ∧ v = s.longAt a ∧
      t = s.setReg (s.offReg n) (a.off + 4) := by
  simp only [State.popLong, bind_ok, readLong_ok, Except.ok.injEq, Prod.mk.injEq, Address.plus_off]
  constructor
  · rintro ⟨a, ha, v', ⟨he, rfl⟩, rfl, rfl⟩; exact ⟨a, ha, he, rfl, rfl⟩
  · rintro ⟨a, ha, he, rfl, rfl⟩; exact ⟨a, ha, _, ⟨he, rfl⟩, rfl, rfl⟩

/-! ### The PC and the FCW -/

theorem setPcOff_ok {s : State} {x : Word} {t : State} : s.setPcOff x = .ok t ↔ x.getLsbD 0 = false ∧ s.movePc x = t := by
  unfold State.setPcOff; split <;> simp_all

theorem loadFcw_ok {s : State} {w : Word} {t : State} :
    s.loadFcw w = .ok t ↔ fcwReservedClear w = true ∧ s.setFcw (s.fcw.ofWord s.cfg.variant w) = t := by
  unfold State.loadFcw; split <;> simp_all

theorem loadFlags_ok {s : State} {b : Byte} {t : State} :
    s.loadFlags b = .ok t ↔ flagsReservedClear b = true ∧ s.setFcw (s.fcw.withFlags b) = t := by
  unfold State.loadFlags; split <;> simp_all

/-- The bits of the FCW word (spec/10_state.md R45). -/
theorem Fcw.getLsbD_word (f : Fcw) (i : Nat) :
    f.word.getLsbD i = match i with
      | 15 => f.seg | 14 => f.sn | 13 => f.se | 12 => f.vie | 11 => f.nvie
      | 7 => f.c | 6 => f.z | 5 => f.s | 4 => f.pv | 3 => f.da | 2 => f.h | _ => false := by
  by_cases h : i < 16
  · interval_cases i <;> simp only [Fcw.word, BitVec.getLsbD_append, BitVec.getLsbD_ofBool] <;> rfl
  · rw [BitVec.getLsbD_of_ge _ _ (by omega)]
    split <;> first | rfl | omega

/-- The FCW word has its reserved bits 0 (spec/10_state.md R58). -/
theorem fcwReservedClear_word (f : Fcw) : fcwReservedClear f.word = true := by
  simp only [fcwReservedClear, flagsReservedClear, loByte, BitVec.getLsbD_extractLsb', Fcw.getLsbD_word]
  rfl

/-- Loading an FCW word that was stored gives back the fields; SEG only on the AMZ8001. -/
theorem ofWord_word (f g : Fcw) (v : Variant) :
    f.ofWord v g.word = { g with seg := if v = .amz8001 then g.seg else f.seg } := by
  simp only [Fcw.ofWord, Fcw.withFlags, loByte, BitVec.getLsbD_extractLsb', Fcw.getLsbD_word]
  rfl

/-! ### Traps -/

theorem pushFrame8001_ok {s : State} {seg : SegNum} {off old ident : Word} {t : State} (h : s.pushFrame8001 seg off old ident = .ok t) :
    s.rs15.getLsbD 0 = false ∧ ∃ w, segOf w = seg ∧
      let sp : Address := { seg := segOf s.rs14, off := s.rs15 }
      t = (((((s.putWord (sp.plus (-2)) off).drawn.drawn.putWord (sp.plus (-4)) w).putWord (sp.plus (-6)) old).putWord (sp.plus (-8))
        ident).setRs15 (s.rs15 - 8)) := by
  simp only [State.pushFrame8001, bind_ok, writeWord_ok, Except.ok.injEq] at h
  obtain ⟨_, ⟨he, rfl⟩, _, ⟨_, rfl⟩, _, ⟨_, rfl⟩, _, ⟨_, rfl⟩, rfl⟩ := h
  refine ⟨?_, (s.putWord (Address.plus { seg := segOf s.rs14, off := s.rs15 } (-2)) off).segWord seg, segOf_segWord _ _ _, ?_⟩
  · rw [Address.plus_off, getLsbD_add_even _ _ (by decide)] at he
    exact he
  · exact congrArg (State.setRs15 _) (BitVec.sub_eq_add_neg ..).symm

theorem pushFrame8002_ok {s : State} {off old ident : Word} {t : State} (h : s.pushFrame8002 off old ident = .ok t) :
    s.rs15.getLsbD 0 = false ∧
      let sp : Address := { seg := s.pcSeg, off := s.rs15 }
      t = (((s.putWord (sp.plus (-2)) off).putWord (sp.plus (-4)) old).putWord (sp.plus (-6)) ident).setRs15 (s.rs15 - 6) := by
  simp only [State.pushFrame8002, bind_ok, writeWord_ok, Except.ok.injEq] at h
  obtain ⟨_, ⟨he, rfl⟩, _, ⟨_, rfl⟩, _, ⟨_, rfl⟩, rfl⟩ := h
  refine ⟨?_, ?_⟩
  · rw [Address.plus_off, getLsbD_add_even _ _ (by decide)] at he
    exact he
  · exact congrArg (State.setRs15 _) (BitVec.sub_eq_add_neg ..).symm

/-! ### Transfers of control -/

theorem jumpTo_ok {s : State} {a : Address} {t : State} :
    s.jumpTo a = .ok t ↔ a.off.getLsbD 0 = false ∧ t = { s with pcSeg := if s.segmented then a.seg else s.pcSeg, pcOff := a.off } := by
  unfold State.jumpTo
  rw [setPcOff_ok]
  constructor
  · rintro ⟨h, rfl⟩; exact ⟨h, by split <;> rfl⟩
  · rintro ⟨h, rfl⟩; exact ⟨h, by split <;> rfl⟩

theorem pushPc_ok {s t : State} (h : s.pushPc = .ok t) :
    if s.segmented then ∃ w, segOf w = s.pcSeg ∧ s.drawn.drawn.pushLong 14 (w ++ s.pcOff) = .ok t else s.pushWord 15 s.pcOff = .ok t := by
  unfold State.pushPc at h
  split at h <;> simp_all only [if_true, if_false, Bool.false_eq_true]
  exact ⟨_, segOf_segWord _ _ _, h⟩

theorem popPc_ok {s t : State} :
    s.popPc = .ok t ↔
      if s.segmented then ∃ w u, s.popLong 14 = .ok (w, u) ∧ (loWord w).getLsbD 0 = false ∧ t = { u with pcSeg := segOf (hiWord w), pcOff := loWord w }
      else ∃ w u, s.popWord 15 = .ok (w, u) ∧ w.getLsbD 0 = false ∧ t = { u with pcOff := w } := by
  unfold State.popPc
  split <;> simp only [bind_ok, setPcOff_ok, Prod.exists, State.movePc] <;> simp only [eq_comm (a := t)]

/-- What loading an entry of the new program status area gives (spec/60_exceptions.md R515, R522). -/
theorem loadEntry_ok {s t : State} {kind : TrapKind} {ident : Word} (h : s.loadEntry kind ident = .ok t) :
    fcwReservedClear (s.newFcw kind) = true ∧ (s.newPcOff kind ident).getLsbD 0 = false ∧
      t = { s with fcw := s.fcw.ofWord s.cfg.variant (s.newFcw kind), pcSeg := s.newPcSeg kind ident, pcOff := s.newPcOff kind ident } := by
  unfold State.loadEntry State.psaWord at h
  simp only [bind_ok, readWord_ok] at h
  obtain ⟨_, ⟨_, rfl⟩, h⟩ := h
  unfold State.newPcOff State.newPcSeg
  split at h <;> rename_i hv <;> simp only [bind_ok, readWord_ok, loadFcw_ok, setPcOff_ok] at h
  · obtain ⟨_, ⟨_, rfl⟩, _, ⟨_, rfl⟩, _, ⟨hf, rfl⟩, ho, rfl⟩ := h
    simp only [hv]
    exact ⟨hf, by simp only [hv] at ho; exact ho, by unfold State.newFcw; rw [hv]; rfl⟩
  · obtain ⟨_, ⟨_, rfl⟩, _, ⟨hf, rfl⟩, ho, rfl⟩ := h
    simp only [hv]
    exact ⟨hf, by simp only [hv] at ho; exact ho, by unfold State.newFcw; rw [hv]; rfl⟩

/-- IRET's operation, whole (spec/44_program_control.md R305). -/
theorem returnFromTrap_ok {s t : State} (h : s.returnFromTrap = .ok t) :
    let sp : Address := if s.segmented then { seg := segOf s.rs14, off := s.rs15 } else { seg := s.pcSeg, off := s.rs15 }
    let f := s.wordAt (sp.plus 2)
    s.rs15.getLsbD 0 = false ∧ fcwReservedClear f = true ∧
      if s.segmented then
        (s.wordAt (sp.plus 6)).getLsbD 0 = false ∧ t = { s.setRs15 (s.rs15 + 8) with
          fcw := s.fcw.ofWord s.cfg.variant f, pcSeg := segOf (s.wordAt (sp.plus 4)), pcOff := s.wordAt (sp.plus 6) }
      else
        (s.wordAt (sp.plus 4)).getLsbD 0 = false ∧
          t = { s.setRs15 (s.rs15 + 6) with fcw := s.fcw.ofWord s.cfg.variant f, pcOff := s.wordAt (sp.plus 4) } := by
  unfold State.returnFromTrap at h
  split at h <;> rename_i hs <;> simp only [bind_ok, readWord_ok, loadFcw_ok, setPcOff_ok] at h
  · obtain ⟨_, ⟨he, rfl⟩, _, ⟨_, rfl⟩, _, ⟨_, rfl⟩, _, ⟨_, rfl⟩, _, ⟨hf, rfl⟩, ho, rfl⟩ := h
    simp only [hs]
    exact ⟨he, hf, ho, rfl⟩
  · obtain ⟨_, ⟨he, rfl⟩, _, ⟨_, rfl⟩, _, ⟨_, rfl⟩, _, ⟨hf, rfl⟩, ho, rfl⟩ := h
    simp only [hs]
    exact ⟨he, hf, ho, rfl⟩

/-! ### Repeating instructions -/

@[simp] theorem again_done (s : State) : again true s = s := rfl
@[simp] theorem again_not_done (s : State) : again false s = s.goBack := rfl

/-! ### Fetch -/

theorem modified_eq_false {s : State} {n : Nat} :
    s.modified n = false ↔ ∀ k, k < 2 * n → s.key (s.pc.plus (BitVec.ofNat 16 k)) ∉ s.stores := by
  simp [State.modified]

theorem modified_eq_true {s : State} {n : Nat} :
    s.modified n = true ↔ ∃ k, k < 2 * n ∧ s.key (s.pc.plus (BitVec.ofNat 16 k)) ∈ s.stores := by
  simp [State.modified]

/-- The PC that the trap of an instruction of n words saves, from the PC at its first word (spec/60_exceptions.md R517). -/
theorem privilegedPc_advanced (s : State) (n : Nat) (h : 0 < n) : (s.advanced n).privilegedPc n = s.trapPc n := by
  obtain ⟨m, rfl⟩ := Nat.exists_eq_succ_of_ne_zero (Nat.pos_iff_ne_zero.mp h)
  unfold State.privilegedPc State.trapPc State.advanced
  cases s.cfg.privTrapPc
  · simp only [Nat.succ_eq_add_one, Nat.add_sub_cancel, BitVec.ofNat_add]
    rw [BitVec.mul_add, show (2 : Word) * BitVec.ofNat 16 1 = 2 from rfl]
    ring
  · rfl

theorem privilegedWords_pos (s : State) : 0 < s.privilegedWords := by
  unfold State.privilegedWords privilegedLength
  split <;> try split
  all_goals decide

/-- Fetching words that decode to nothing answers only the trap of a system instruction in normal mode (log 13). -/
theorem fetchFailed_ok {s : State} {e : DecodeError} {f : Fetched} :
    s.fetchFailed e = .ok f ↔ s.fcw.sn = false ∧ privilegedFirstWord (s.wordAt s.pc) = true ∧ s.modified s.privilegedWords = false ∧
      ∃ t, (s.advanced s.privilegedWords).trapEntry .privilegedInstruction (s.wordAt s.pc) (s.trapPc s.privilegedWords) = .ok t ∧
        f = .trapped t := by
  unfold State.fetchFailed
  rw [← privilegedPc_advanced s _ (privilegedWords_pos s)]
  by_cases h1 : s.fcw.sn <;> by_cases h2 : privilegedFirstWord (s.wordAt s.pc) <;>
    by_cases h3 : s.modified s.privilegedWords <;> simp [h1, h2, h3, bind_ok, eq_comm (b := f)]

end Sys2Proof.Machine
end

