-- ==== Sys2Proof/Tests/Slice0.lean ====
section
/-! SUPPORT. The model's own tests. Expected results are taken from spec/95_test_vectors.md (named by its vector numbers) and the
"Encoding" and "Example" lines of the instruction rules; none is the model's own answer. -/

namespace Sys2Proof.Tests

open Sys2Proof.Machine

/-! ### Decoding: words written out from the spec's encodings -/

/-- The words decode to the instruction, and nothing is left. -/
def decodesTo (seg : Bool) (ws : List Word) (i : Instr) : Bool :=
  match decode seg ws with
  | .ok (j, rest) => j == i && rest.isEmpty
  | .error _ => false

/-- The words decode to nothing, for this reason. -/
def rejects (seg : Bool) (ws : List Word) (e : DecodeError) : Bool :=
  match decode seg ws with
  | .ok _ => false
  | .error e' => e' == e

/-- Every pair of a list decodes, in non-segmented operation. -/
def allDecode (l : List (List Word × Instr)) : Bool := l.all fun p => decodesTo false p.1 p.2

/-- The family's the words of the Encoding and Example lines. -/
theorem test_decode_load : allDecode
  [ ([0x8D58], .clr (.reg 5)), ([0x8C88], .clrb (.reg 8)), ([0xAD21], .ex 1 (.reg 2)),
    ([0xAC98], .exb 8 (.reg 9)), ([0x2101, 0x1234], .ld 1 (.imm 0x1234)), ([0x2008, 0x0505], .ldb 8 (.imm 5)),
    ([0x9424], .ldl 4 (.reg 2)), ([0xC841], .ldbk 8 0x41), ([0x2F21], .ldStore (.mem (.ir 2)) 1),
    ([0x3228, 0x0004], .ldbStore (.ba 2 4) 8), ([0x5D02, 0x4000], .ldlStore (.mem (.da (.plain 0x4000))) 2), ([0x4D05, 0x4000, 0x0001], .ldStoreImm (.da (.plain 0x4000)) 1),
    ([0x0C25, 0x0707], .ldbStoreImm (.ir 2) 7), ([0x3421, 0x0010], .lda 1 (.ba 2 0x10)), ([0x3401, 0x00FC], .ldar 1 0xFC),
    ([0xBD35], .ldk 3 5), ([0x1C11, 0x0201], .ldmLoad 2 (.ir 1) 1), ([0x1C19, 0x0201], .ldmStore (.ir 1) 2 1),
    ([0x3101, 0x000C], .ldr 1 0xC), ([0x3008, 0x000C], .ldrb 8 0xC), ([0x3502, 0x000C], .ldrl 2 0xC),
    ([0x3301, 0x000C], .ldrStore 0xC 1), ([0x3208, 0x000C], .ldrbStore 0xC 8), ([0x3702, 0x000C], .ldrlStore 0xC 2) ] = true := by decide

/-- The family's the words of the Encoding and Example lines. -/
theorem test_decode_stack : allDecode
  [ ([0x97F1], .pop (.reg 1) 15), ([0x95F2], .popl (.reg 2) 15), ([0x93F1], .push 15 (.reg 1)),
    ([0x91F2], .pushl 15 (.reg 2)), ([0x0DF9, 0x00FF], .pushImm 15 0xFF) ] = true := by decide

/-- The family's the words of the Encoding and Example lines. -/
theorem test_decode_arithmetic : allDecode
  [ ([0xB521], .adc 1 2), ([0xB498], .adcb 8 9), ([0x8121], .add 1 (.reg 2)),
    ([0x0008, 0x0505], .addb 8 (.imm 5)), ([0x9624], .addl 4 (.reg 2)), ([0x0B01, 0x0005], .cp 1 (.imm 5)),
    ([0x0A08, 0x0505], .cpb 8 (.imm 5)), ([0x9024], .cpl 4 (.reg 2)), ([0x0D21, 0x0010], .cpMemImm (.ir 2) 0x10),
    ([0x0C21, 0x1010], .cpbMemImm (.ir 2) 0x10), ([0xB080], .dab 8), ([0xAB20], .dec (.reg 2) 0),
    ([0xAA80], .decb (.reg 8) 0), ([0x1B02, 0x0002], .div 2 (.imm 2)), ([0x1A04, 0x0000, 0x0007], .divl 4 (.imm 7)),
    ([0xB12A], .exts 2), ([0xB110], .extsb 1), ([0xB147], .extsl 4),
    ([0xA911], .inc (.reg 1) 1), ([0xA881], .incb (.reg 8) 1), ([0x1902, 0x0003], .mult 2 (.imm 3)),
    ([0x9864], .multl 4 (.reg 6)), ([0x8D12], .neg (.reg 1)), ([0x8C82], .negb (.reg 8)),
    ([0xB721], .sbc 1 2), ([0xB698], .sbcb 8 9), ([0x0301, 0x0005], .sub 1 (.imm 5)),
    ([0x0208, 0x0505], .subb 8 (.imm 5)), ([0x9224], .subl 4 (.reg 2)) ] = true := by decide

/-- The family's the words of the Encoding and Example lines. -/
theorem test_decode_logical : allDecode
  [ ([0x8721], .and 1 (.reg 2)), ([0x0608, 0x0F0F], .andb 8 (.imm 0x0F)), ([0x8D10], .com (.reg 1)),
    ([0x8C80], .comb (.reg 8)), ([0x0501, 0x0F00], .or 1 (.imm 0x0F00)), ([0x8498], .orb 8 (.reg 9)),
    ([0xAF16], .tcc 6 1), ([0xAE86], .tccb 6 8), ([0x8D14], .test (.reg 1)),
    ([0x8C84], .testb (.reg 8)), ([0x9C28], .testl (.reg 2)), ([0x8911], .xor 1 (.reg 1)),
    ([0x8898], .xorb 8 (.reg 9)) ] = true := by decide

/-- The family's the words of the Encoding and Example lines. -/
theorem test_decode_program_control : allDecode
  [ ([0x5F00, 0x0200], .call (.da (.plain 0x200))), ([0xDFF9], .calr 0xFF9), ([0xF282], .djnz 2 2),
    ([0xF802], .dbjnz 8 2), ([0x7B00], .iret), ([0x5E0E, 0x0200], .jp 14 (.da (.plain 0x200))),
    ([0xE607], .jr 6 7), ([0x9E08], .ret 8), ([0x7F05], .sc 5) ] = true := by decide

/-- The family's the words of the Encoding and Example lines. -/
theorem test_decode_bit : allDecode
  [ ([0xA71F], .bit (.reg 1) 15), ([0xA683], .bitb (.reg 8) 3), ([0x2702, 0x0100], .bitDyn 1 2),
    ([0x2602, 0x0800], .bitbDyn 8 2), ([0xA314], .res (.reg 1) 4), ([0xA284], .resb (.reg 8) 4),
    ([0x2302, 0x0100], .resDyn 1 2), ([0x2202, 0x0800], .resbDyn 8 2), ([0xA514], .set (.reg 1) 4),
    ([0xA417], .setb (.reg 1) 7), ([0x2502, 0x0100], .setDyn 1 2), ([0x2402, 0x0800], .setbDyn 8 2),
    ([0x4D06, 0x4000], .tset (.mem (.da (.plain 0x4000)))), ([0x8C86], .tsetb (.reg 8)) ] = true := by decide

/-- The family's the words of the Encoding and Example lines. -/
theorem test_decode_rotate : allDecode
  [ ([0xB310], .rl 1 false), ([0xB280], .rlb 8 false), ([0xB318], .rlc 1 false),
    ([0xB288], .rlcb 8 false), ([0xB314], .rr 1 false), ([0xB284], .rrb 8 false),
    ([0xB31E], .rrc 1 true), ([0xB28C], .rrcb 8 false), ([0xBE98], .rldb 9 8),
    ([0xBC98], .rrdb 9 8) ] = true := by decide

/-- The family's the words of the Encoding and Example lines. -/
theorem test_decode_shift : allDecode
  [ ([0xB319, 0x0001], .sla 1 1), ([0xB289, 0x0001], .slab 8 1), ([0xB32D, 0x0001], .slal 2 1),
    ([0xB311, 0x0008], .sll 1 8), ([0xB281, 0x0003], .sllb 8 3), ([0xB325, 0x0003], .slll 2 3),
    ([0xB319, 0xFFFF], .sra 1 1), ([0xB289, 0xFFFF], .srab 8 1), ([0xB32D, 0xFFFF], .sral 2 1),
    ([0xB311, 0xFFFF], .srl 1 1), ([0xB281, 0x00FF], .srlb 8 1), ([0xB325, 0xFFE1], .srll 2 31),
    ([0xB31B, 0x0200], .sda 1 2), ([0xB28B, 0x0200], .sdab 8 2), ([0xB32F, 0x0400], .sdal 2 4),
    ([0xB313, 0x0200], .sdl 1 2), ([0xB283, 0x0200], .sdlb 8 2), ([0xB327, 0x0400], .sdll 2 4) ] = true := by decide

/-- The family's the words of the Encoding and Example lines. -/
theorem test_decode_block_compare : allDecode
  [ ([0xBB18, 0x0306], .cpd 0 1 3 6), ([0xBA18, 0x0386], .cpdb 8 1 3 6), ([0xBB1C, 0x0306], .cpdr 0 1 3 6),
    ([0xBA1C, 0x038E], .cpdrb 8 1 3 14), ([0xBB10, 0x0306], .cpi 0 1 3 6), ([0xBA10, 0x0386], .cpib 8 1 3 6),
    ([0xBB14, 0x0306], .cpir 0 1 3 6), ([0xBA14, 0x0386], .cpirb 8 1 3 6), ([0xBB1A, 0x0326], .cpsd 2 1 3 6),
    ([0xBA1A, 0x0326], .cpsdb 2 1 3 6), ([0xBB1E, 0x0326], .cpsdr 2 1 3 6), ([0xBA1E, 0x032E], .cpsdrb 2 1 3 14),
    ([0xBB12, 0x0326], .cpsi 2 1 3 6), ([0xBA12, 0x0326], .cpsib 2 1 3 6), ([0xBB16, 0x0326], .cpsir 2 1 3 6),
    ([0xBA16, 0x032E], .cpsirb 2 1 3 14) ] = true := by decide

/-- The family's the words of the Encoding and Example lines. -/
theorem test_decode_block_move : allDecode
  [ ([0xBB19, 0x0328], .ldd 2 1 3), ([0xBA19, 0x0328], .lddb 2 1 3), ([0xBB19, 0x0320], .lddr 2 1 3),
    ([0xBA19, 0x0320], .lddrb 2 1 3), ([0xBB11, 0x0328], .ldi 2 1 3), ([0xBA11, 0x0328], .ldib 2 1 3),
    ([0xBB11, 0x0320], .ldir 2 1 3), ([0xBA11, 0x0320], .ldirb 2 1 3), ([0xB828, 0x0340], .trdb 2 4 3),
    ([0xB82C, 0x0340], .trdrb 2 4 3), ([0xB820, 0x0340], .trib 2 4 3), ([0xB824, 0x0340], .trirb 2 4 3),
    ([0xB82A, 0x0340], .trtdb 2 4 3), ([0xB82E, 0x034E], .trtdrb 2 4 3), ([0xB822, 0x0340], .trtib 2 4 3),
    ([0xB826, 0x034E], .trtirb 2 4 3) ] = true := by decide

/-- The family's the words of the Encoding and Example lines. -/
theorem test_decode_io : allDecode
  [ ([0x3D21], .inReg 1 2), ([0x3C28], .inbReg 8 2), ([0x3B14, 0x0012], .inPort 1 0x12),
    ([0x3A84, 0x0012], .inbPort 8 0x12), ([0x3F21], .outReg 2 1), ([0x3E28], .outbReg 2 8),
    ([0x3B16, 0x0012], .outPort 0x12 1), ([0x3A86, 0x0012], .outbPort 0x12 8), ([0x3B15, 0x0012], .sin 1 0x12),
    ([0x3A85, 0x0012], .sinb 8 0x12), ([0x3B17, 0x0012], .sout 0x12 1), ([0x3A87, 0x0012], .soutb 0x12 8) ] = true := by decide

/-- The family's the words of the Encoding and Example lines. -/
theorem test_decode_io_block : allDecode
  [ ([0x3B28, 0x0348], .ind 4 2 3), ([0x3A28, 0x0348], .indb 4 2 3), ([0x3B28, 0x0340], .indr 4 2 3),
    ([0x3A28, 0x0340], .indrb 4 2 3), ([0x3B20, 0x0348], .ini 4 2 3), ([0x3A20, 0x0348], .inib 4 2 3),
    ([0x3B20, 0x0340], .inir 4 2 3), ([0x3A20, 0x0340], .inirb 4 2 3), ([0x3B4A, 0x0328], .outd 2 4 3),
    ([0x3A4A, 0x0328], .outdb 2 4 3), ([0x3B4A, 0x0320], .otdr 2 4 3), ([0x3A4A, 0x0320], .otdrb 2 4 3),
    ([0x3B42, 0x0328], .outi 2 4 3), ([0x3A42, 0x0328], .outib 2 4 3), ([0x3B42, 0x0320], .otir 2 4 3),
    ([0x3A42, 0x0320], .otirb 2 4 3), ([0x3B29, 0x0348], .sind 4 2 3), ([0x3A29, 0x0348], .sindb 4 2 3),
    ([0x3B29, 0x0340], .sindr 4 2 3), ([0x3A29, 0x0340], .sindrb 4 2 3), ([0x3B21, 0x0348], .sini 4 2 3),
    ([0x3A21, 0x0348], .sinib 4 2 3), ([0x3B21, 0x0340], .sinir 4 2 3), ([0x3A21, 0x0340], .sinirb 4 2 3),
    ([0x3B4B, 0x0328], .soutd 2 4 3), ([0x3A4B, 0x0328], .soutdb 2 4 3), ([0x3B4B, 0x0320], .sotdr 2 4 3),
    ([0x3A4B, 0x0320], .sotdrb 2 4 3), ([0x3B43, 0x0328], .souti 2 4 3), ([0x3A43, 0x0328], .soutib 2 4 3),
    ([0x3B43, 0x0320], .sotir 2 4 3), ([0x3A43, 0x0320], .sotirb 2 4 3) ] = true := by decide

/-- The family's the words of the Encoding and Example lines. -/
theorem test_decode_control : allDecode
  [ ([0x8D85], .comflg 8), ([0x8DC3], .resflg 12), ([0x8D11], .setflg 1),
    ([0x7C01], .di true false), ([0x7C06], .ei false true), ([0x7A00], .halt),
    ([0x8D07], .nop), ([0x7D22], .ldctlRead 2 .fcw), ([0x7D1D], .ldctlWrite .psapoff 1),
    ([0x8C81], .ldctlbRead 8), ([0x8C89], .ldctlbWrite 8), ([0x7900, 0x3000], .ldps (.da (.plain 0x3000))),
    ([0x7B0A], .mbit), ([0x7B1D], .mreq 1), ([0x7B09], .mres),
    ([0x7B08], .mset) ] = true := by decide

/-- spec/95_test_vectors.md E1 to E5, E10, E14; R203, R209. -/
theorem test_decode_modes : allDecode
  [ ([0x0121], .add 1 (.mem (.ir 2))), ([0x4101, 0x4000], .add 1 (.mem (.da (.plain 0x4000)))), ([0x4121, 0x4000], .add 1 (.mem (.x (.plain 0x4000) 2))),
    ([0x3121, 0x0010], .ld 1 (.mem (.ba 2 0x10))), ([0x7121, 0x0300], .ld 1 (.mem (.bx 2 3))), ([0x7601, 0x4000], .lda 1 (.da (.plain 0x4000))),
    ([0x7621, 0x4000], .lda 1 (.x (.plain 0x4000) 2)), ([0x1402, 0x8200, 0x8000], .ldl 2 (.imm 0x82008000)), ([0xE8FF], .jr 8 0xFF) ] = true := by decide

/-- E6, E7: short and long addresses in segmented operation. -/
theorem test_decode_segmented :
    (decodesTo true [0x4101, 0x0210] (.add 1 (.mem (.da (.short 2 0x10)))) &&
     decodesTo true [0x4101, 0x8200, 0x8004] (.add 1 (.mem (.da (.long 2 0x8004)))) &&
     decodesTo true [0x3325, 0x0004] (.ldStore (.ba 2 4) 5)) = true := by decide

/-- E9, E11, E12, E13, L17, H14: encodings that are refused by name. -/
theorem test_decode_refused :
    (rejects false [0x0008, 0x0506] .badByteImmediate && rejects false [0x3600] .undefinedEncoding &&
     rejects false [0x0E00] .undefinedEncoding && rejects false [0x9413] .badRegisterCode &&
     rejects false [0x9701] .undefinedEncoding && rejects false [0xB311, 0x0011] .badShiftCount) = true := by decide

/-! ### WellFormed: an ill-formed term for each check -/

theorem test_wf_zero_address_register : wfError false (.clr (.mem (.ir 0))) = some .undefinedEncoding := by decide
theorem test_wf_zero_index : wfError false (.ld 1 (.mem (.bx 2 0))) = some .undefinedEncoding := by decide
theorem test_wf_odd_pair : wfError false (.ldl 3 (.imm 0)) = some .badRegisterCode := by decide
theorem test_wf_quadruple : wfError false (.extsl 6) = some .badRegisterCode := by decide
theorem test_wf_odd_address_pair : wfError true (.clr (.mem (.ir 3))) = some .badRegisterCode := by decide
theorem test_wf_address_form_nonsegmented : wfError false (.clr (.mem (.da (.short 2 4)))) = some .undefinedEncoding := by decide
theorem test_wf_address_form_segmented : wfError true (.clr (.mem (.da (.plain 4)))) = some .undefinedEncoding := by decide
theorem test_wf_address_destination : wfError true (.ldar 3 0) = some .badRegisterCode := by decide
theorem test_wf_byte_bit : wfError false (.bitb (.reg 1) 8) = some .undefinedEncoding := by decide
/-- A byte bit number of 8 or more on an odd address pair: the operand is named first (log 40). -/
theorem test_wf_byte_bit_operand_first : wfError true (.bitb (.mem (.ir 3)) 9) = some .badRegisterCode := by decide
theorem test_wf_left_count : wfError false (.sla 1 17) = some .badShiftCount := by decide
theorem test_wf_right_count : wfError false (.sra 1 0) = some .badShiftCount := by decide
theorem test_wf_port_register : wfError false (.inReg 1 0) = some .undefinedEncoding := by decide
theorem test_wf_stack_pointer : wfError false (.pop (.reg 1) 0) = some .undefinedEncoding := by decide

/-! ### One step on small states -/

/-- The AMZ8002 in system mode at 0x0100, as spec/95_test_vectors.md starts unless it says otherwise. -/
def base : State := { State.reset with fcw := { Fcw.zero with sn := true }, pcOff := 0x100 }
/-- The AMZ8001 in segmented system mode at segment 1, offset 0x0100. -/
def base1 : State := { base with cfg := Config.amz8001, fcw := { Fcw.zero with sn := true, seg := true }, pcSeg := 1 }
/-- Registers set. -/
def regs (l : List (RegCode × Word)) (s : State) : State := l.foldl (fun s p => s.setReg p.1 p.2) s
/-- Words placed in memory, segment 0. -/
def words (l : List (Word × Word)) (s : State) : State :=
  { l.foldl (fun s p => s.putWord { seg := 0, off := p.1 } p.2) s with stores := [] }
/-- Instruction words placed at the PC. -/
def code (ws : List Word) (s : State) : State := { s.placeWords s.pc ws with stores := [] }
/-- The step answers a next state with this property. -/
def after (s : State) (p : State → Bool) : Bool :=
  match step s with
  | .next t => p t
  | .fault _ => false
  | .refused _ => false
/-- The step is refused for this reason. -/
def refusedBy (s : State) (r : Refusal) : Bool :=
  match step s with
  | .next _ => false
  | .fault _ => false
  | .refused r' => r' == r
/-- The flags C, Z, S, P/V. -/
def czsv (t : State) : List Bool := [t.fcw.c, t.fcw.z, t.fcw.s, t.fcw.pv]
/-- The word at an offset of segment 0. -/
def at0 (t : State) (off : Word) : Word := t.wordAt { seg := 0, off := off }
/-- The output events alone. -/
def outputs (t : State) : List OutEvent :=
  t.events.filter fun e => match e with
    | .askByte _ _ => false
    | .askWord _ _ => false
    | .portByte _ _ _ => true
    | .portWord _ _ _ => true
    | .multiMicro _ => true

/-- L1 -/
theorem test_clr : after (code [0x8D58] (regs [(5, 0xFFFF)] base))
    (fun t => t.reg 5 == 0 && t.fcw == base.fcw) = true := by decide
/-- L2 -/
theorem test_ex : after (code [0xAD21] (regs [(1, 0x1111), (2, 0x2222)] base))
    (fun t => t.reg 1 == 0x2222 && t.reg 2 == 0x1111) = true := by decide
/-- L3 -/
theorem test_ld_immediate : after (code [0x2101, 0x1234] base)
    (fun t => t.reg 1 == 0x1234 && t.pcOff == 0x104) = true := by decide
/-- L4 -/
theorem test_ld_register : after (code [0xA112] (regs [(1, 0x1234)] base))
    (fun t => t.reg 2 == 0x1234) = true := by decide
/-- L5 -/
theorem test_ldb_compact : after (code [0xC841] (regs [(0, 0xFF00)] base))
    (fun t => t.reg 0 == 0xFF41) = true := by decide
/-- L6 -/
theorem test_ld_store : after (code [0x2F21] (regs [(2, 0x4000), (1, 0xBEEF)] base))
    (fun t => at0 t 0x4000 == 0xBEEF && t.readByte { seg := 0, off := 0x4000 } == 0xBE) = true := by decide
/-- L7 -/
theorem test_ld_store_immediate : after (code [0x4D05, 0x4000, 0x0001] base)
    (fun t => at0 t 0x4000 == 1 && t.pcOff == 0x106) = true := by decide
/-- L8 -/
theorem test_lda : after (code [0x3421, 0x0010] (regs [(2, 0x1000)] base))
    (fun t => t.reg 1 == 0x1010) = true := by decide
/-- L9 -/
theorem test_ldar : after (code [0x3401, 0x00FC] base)
    (fun t => t.reg 1 == 0x200) = true := by decide
/-- L10 -/
theorem test_ldk : after (code [0xBD35] (regs [(3, 0xFFFF)] base))
    (fun t => t.reg 3 == 5) = true := by decide
/-- L11 -/
theorem test_ldm_load : after (code [0x1C11, 0x0201] (regs [(1, 0x4000)] (words [(0x4000, 0xAAAA), (0x4002, 0xBBBB)] base)))
    (fun t => t.reg 2 == 0xAAAA && t.reg 3 == 0xBBBB && t.reg 1 == 0x4000) = true := by decide
/-- L12 -/
theorem test_ldm_store : after (code [0x1C19, 0x0201] (regs [(1, 0x4000), (2, 0x0001), (3, 0x0002)] base))
    (fun t => at0 t 0x4000 == 1 && at0 t 0x4002 == 2) = true := by decide
/-- L13 -/
theorem test_pop : after (code [0x97F1] (regs [(15, 0x8000)] (words [(0x8000, 0x1234)] base)))
    (fun t => t.reg 1 == 0x1234 && t.reg 15 == 0x8002) = true := by decide
/-- L14 -/
theorem test_push : after (code [0x93F1] (regs [(15, 0x8002), (1, 0x1234)] base))
    (fun t => t.reg 15 == 0x8000 && at0 t 0x8000 == 0x1234) = true := by decide
/-- L15 -/
theorem test_push_immediate : after (code [0x0DF9, 0x00FF] (regs [(15, 0x8000)] base))
    (fun t => t.reg 15 == 0x7FFE && at0 t 0x7FFE == 0xFF) = true := by decide
/-- L16 -/
theorem test_pushl : after (code [0x91F2] (regs [(15, 0x8000), (2, 0x1234), (3, 0x5678)] base))
    (fun t => t.reg 15 == 0x7FFC && at0 t 0x7FFC == 0x1234 && at0 t 0x7FFE == 0x5678) = true := by decide
/-- A1 -/
theorem test_ld_base_address : after (code [0x3121, 0x0010] (regs [(2, 0x1000)] (words [(0x1010, 0xCAFE)] base)))
    (fun t => t.reg 1 == 0xCAFE) = true := by decide
/-- A2 -/
theorem test_ld_base_indexed : after (code [0x7121, 0x0300] (regs [(2, 0x1000), (3, 0x0010)] (words [(0x1010, 0xCAFE)] base)))
    (fun t => t.reg 1 == 0xCAFE) = true := by decide
/-- A3 -/
theorem test_ldr : after (code [0x3101, 0x000C] (words [(0x0110, 0x5555)] base))
    (fun t => t.reg 1 == 0x5555) = true := by decide
/-- A4 -/
theorem test_ld_segmented_base : after (code [0x3325, 0x0004] (regs [(2, 0x8200), (3, 0x8000), (5, 0xFFFF)] base1))
    (fun t => t.wordAt { seg := 2, off := 0x8004 } == 0xFFFF) = true := by decide
/-- A5: X mode with a short offset. -/
theorem test_ld_segmented_index : after (code [0x6167, 0x0210] (regs [(6, 0x7FF4)]
      { base1.putWord { seg := 2, off := 0x8004 } 0xFFFF with stores := [] }))
    (fun t => t.reg 7 == 0xFFFF) = true := by decide
/-- P3 -/
theorem test_ldl_memory : after (code [0x1424] (regs [(2, 0x4000)] (words [(0x4000, 0x1234), (0x4002, 0x5678)] base)))
    (fun t => t.reg 4 == 0x1234 && t.reg 5 == 0x5678) = true := by decide
/-- X1 -/
theorem test_misaligned : refusedBy (code [0x2121] (regs [(2, 0x4001)] base)) .misaligned = true := by decide
/-- R217: the stack pointer pushed through itself -/
theorem test_push_overlap : refusedBy (code [0x93FF] (regs [(15, 0x8000)] base)) .pushOverlapsSp = true := by decide
/-- R216: the stack pointer popped into -/
theorem test_pop_overlap : refusedBy (code [0x97FF] (regs [(15, 0x8000)] base)) .popOverlapsSp = true := by decide

/-! #### Views of the registers and the FCW -/

/-- S1, S2. -/
theorem test_byte_views : ((base.setReg 1 0xAABB).setRb 1 0x12).reg 1 = 0x12BB ∧ ((base.setReg 1 0xAABB).setRb 9 0x12).reg 1 = 0xAA12 := by decide
/-- S3. -/
theorem test_quad_view : (base.setRq 0 0x0123456789ABCDEF).reg 0 = 0x0123 ∧ (base.setRq 0 0x0123456789ABCDEF).reg 3 = 0xCDEF := by decide
/-- S4: the system bank of the AMZ8001. -/
theorem test_bank_8001 : (({ base1 with gr := (base1.gr.set 16 0x0100).set 17 0x8000 } : State).rr 14) = 0x01008000 := by decide
/-- S6: the AMZ8002 has no R14'. -/
theorem test_bank_8002 : ({ base with gr := base.gr.set 14 0x3333 } : State).reg 14 = 0x3333 := by decide
/-- S7. -/
theorem test_fcw_word : ({ Fcw.zero with sn := true, vie := true, c := true, z := true } : Fcw).word = 0x50C0 := by decide
/-- S8. -/
theorem test_fcw_reserved : fcwReservedClear 0x4100 = false := by decide
/-- S9: bit 15 is ignored on the AMZ8002. -/
theorem test_fcw_seg_8002 : (Fcw.zero.ofWord .amz8002 0xC000).word = 0x4000 := by decide
/-- M6: a long word wraps inside its segment. -/
theorem test_long_wraps :
    ((base1.putWord { seg := 2, off := 0xFFFE } 0xAABB).putWord { seg := 2, off := 0 } 0xCCDD).longAt { seg := 2, off := 0xFFFE } = 0xAABBCCDD := by
  decide
/-- Section 1.6: reset of the AMZ8002 and of the AMZ8001. -/
theorem test_reset_8002 : (match (words [(0, 0x4000), (2, 0x0100)] State.reset).applyReset with
    | .ok t => t.fcw.word == 0x4000 && t.pcOff == 0x100 && t.refresh.re
    | .error _ => false) = true := by decide
theorem test_reset_8001 : (match (words [(2, 0xC000), (4, 0x0100)] { State.reset with cfg := Config.amz8001 }).applyReset with
    | .ok t => t.fcw.word == 0xC000 && t.pcSeg == 1 && t.pcOff == 0
    | .error _ => false) = true := by decide
/-- The reset state is what reset makes of a machine with nothing listed in memory. -/
theorem test_reset_fixed : (match State.reset.applyReset with
    | .ok t => t == State.reset
    | .error _ => false) = true := by decide

/-! #### Arithmetic -/

/-- F1 -/
theorem test_add_overflow : (let o := addN (0x7FFF : BitVec 16) 1 false; (o.r == 0x8000 && !o.c && !o.z && o.s && o.v)) = true := by decide
/-- F2 -/
theorem test_add_carry : (let o := addN (0xFFFF : BitVec 16) 1 false; (o.r == 0 && o.c && o.z && !o.s && !o.v)) = true := by decide
/-- F5 -/
theorem test_add_half : (let o := addN (0x0F : BitVec 8) 1 false; (o.r == 0x10 && !o.c && o.h && !o.v)) = true := by decide
/-- F9 -/
theorem test_add_carry_in : (let o := addN (0xFF : BitVec 8) 0 true; (o.r == 0 && o.c && o.z && o.h && !o.v)) = true := by decide
/-- F12 -/
theorem test_sub_borrow : (let o := subN (3 : BitVec 16) 5 false; (o.r == 0xFFFE && o.c && o.s && !o.v)) = true := by decide
/-- F13 -/
theorem test_sub_overflow : (let o := subN (0x8000 : BitVec 16) 1 false; (o.r == 0x7FFF && !o.c && !o.s && o.v)) = true := by decide
/-- F17 -/
theorem test_sub_half : (let o := subN (0x42 : BitVec 8) 0x13 false; (o.r == 0x2F && !o.c && o.h && !o.v)) = true := by decide
/-- F18 -/
theorem test_sub_borrow_in : (let o := subN (0 : BitVec 16) 0 true; (o.r == 0xFFFF && o.c && o.s && !o.v)) = true := by decide
/-- AR1 -/
theorem test_adcb : after (code [0xB498] (regs [(0, 0x00FF)] { base with fcw := { base.fcw with c := true, da := true } }))
    (fun t => t.rb 8 == 0 && czsv t == [true, true, false, false] && t.fcw.h && !t.fcw.da) = true := by decide
/-- AR2 -/
theorem test_add : after (code [0x8121] (regs [(1, 0x000A), (2, 0x0005)] base))
    (fun t => t.reg 1 == 0xF && czsv t == [false, false, false, false]) = true := by decide
/-- AR3 -/
theorem test_cp : after (code [0x0B01, 0x0005] (regs [(1, 0x0003)] base))
    (fun t => t.reg 1 == 3 && czsv t == [true, false, true, false]) = true := by decide
/-- AR4 -/
theorem test_cp_memory : after (code [0x0D21, 0x0010] (regs [(2, 0x4000)] (words [(0x4000, 0x0010)] base)))
    (fun t => czsv t == [false, true, false, false] && at0 t 0x4000 == 0x10) = true := by decide
/-- AR5 -/
theorem test_dab_add : after (code [0xB080] (regs [(0, 0x007D)] base))
    (fun t => t.rb 8 == 0x83 && !t.fcw.c) = true := by decide
/-- AR7 -/
theorem test_dab_sub : after (code [0xB080] (regs [(0, 0x002F)] { base with fcw := { base.fcw with da := true, h := true } }))
    (fun t => t.rb 8 == 0x29 && !t.fcw.c) = true := by decide
/-- AR8 -/
theorem test_dec : after (code [0xAB20] (regs [(2, 0x0001)] { base with fcw := { base.fcw with c := true } }))
    (fun t => t.reg 2 == 0 && czsv t == [true, true, false, false]) = true := by decide
/-- AR9 -/
theorem test_exts : after (code [0xB12A] (regs [(3, 0x8000)] base))
    (fun t => t.reg 2 == 0xFFFF && t.reg 3 == 0x8000 && t.fcw == base.fcw) = true := by decide
/-- AR10 -/
theorem test_extsb : after (code [0xB110] (regs [(1, 0xFF7F)] base))
    (fun t => t.reg 1 == 0x7F) = true := by decide
/-- R254 -/
theorem test_extsl : after (code [0xB147] (regs [(6, 0x8000)] base))
    (fun t => t.reg 4 == 0xFFFF && t.reg 5 == 0xFFFF && t.reg 6 == 0x8000 && t.reg 7 == 0) = true := by decide
/-- AR11 -/
theorem test_inc : after (code [0xA911] (regs [(1, 0x00FF)] { base with fcw := { base.fcw with c := true } }))
    (fun t => t.reg 1 == 0x101 && czsv t == [true, false, false, false]) = true := by decide
/-- AR12 -/
theorem test_inc_overflow : after (code [0xA910] (regs [(1, 0x7FFF)] base))
    (fun t => t.reg 1 == 0x8000 && czsv t == [false, false, true, true]) = true := by decide
/-- AR13 -/
theorem test_mult : after (code [0x1902, 0x0003] (regs [(2, 0x1234), (3, 0xFFFE)] base))
    (fun t => t.rr 2 == 0xFFFFFFFA && czsv t == [false, false, true, false]) = true := by decide
/-- AR14 -/
theorem test_multl : after (code [0x9864] (regs [(6, 0x0001)] base))
    (fun t => t.rq 4 == 0x0000000100000000 && czsv t == [true, false, false, false]) = true := by decide
/-- AR15 -/
theorem test_neg : after (code [0x8D12] (regs [(1, 0x0001)] base))
    (fun t => t.reg 1 == 0xFFFF && czsv t == [true, false, true, false]) = true := by decide
/-- AR16 -/
theorem test_div_negative : after (code [0x1B02, 0x0002] (regs [(2, 0xFFFF), (3, 0xFFF9)] base))
    (fun t => t.reg 3 == 0xFFFD && t.reg 2 == 0xFFFF) = true := by decide
/-- AR17 -/
theorem test_div_negative_divisor : after (code [0x1B02, 0xFFFE] (regs [(3, 0x0007)] base))
    (fun t => t.reg 3 == 0xFFFD && t.reg 2 == 1) = true := by decide
/-- AR18 -/
theorem test_divl : after (code [0x1A04, 0x0000, 0x0007] (regs [(7, 0x0064)] base))
    (fun t => t.rr 6 == 14 && t.rr 4 == 2) = true := by decide
/-- AR19 -/
theorem test_div_by_zero : refusedBy (code [0x1B02, 0x0000] (regs [(2, 0x0001)] base)) .divideCornerCase = true := by decide
/-- AR20 -/
theorem test_sbc : after (code [0xB721] { base with fcw := { base.fcw with c := true } })
    (fun t => t.reg 1 == 0xFFFF && czsv t == [true, false, true, false]) = true := by decide
/-- AR21 -/
theorem test_sub : after (code [0x0301, 0x0005] (regs [(1, 0x0005)] base))
    (fun t => t.reg 1 == 0 && czsv t == [false, true, false, false]) = true := by decide

/-! #### Logical -/

/-- G1 -/
theorem test_andb : after (code [0x0608, 0x0F0F] (regs [(0, 0x00F3)] base))
    (fun t => t.rb 8 == 3 && czsv t == [false, false, false, true]) = true := by decide
/-- G2 -/
theorem test_com : after (code [0x8D10] (regs [(1, 0x00FF)] base))
    (fun t => t.reg 1 == 0xFF00 && czsv t == [false, false, true, false]) = true := by decide
/-- G3 -/
theorem test_or : after (code [0x0501, 0x0F00] (regs [(1, 0x00F0)] base))
    (fun t => t.reg 1 == 0x0FF0 && czsv t == [false, false, false, false]) = true := by decide
/-- G4 -/
theorem test_tcc_true : after (code [0xAF16] { base with fcw := { base.fcw with z := true } })
    (fun t => t.reg 1 == 1 && t.fcw.z) = true := by decide
/-- G5 -/
theorem test_tcc_false : after (code [0xAF16] base)
    (fun t => t.reg 1 == 0) = true := by decide
/-- G6 -/
theorem test_testl : after (code [0x9C28] base)
    (fun t => czsv t == [false, true, false, false]) = true := by decide
/-- G7 -/
theorem test_xor : after (code [0x8911] (regs [(1, 0x1234)] { base with fcw := { base.fcw with pv := true } }))
    (fun t => t.reg 1 == 0 && czsv t == [false, true, false, true]) = true := by decide
/-- R280: the parity of 0x03, 0x00, 0xFF is even, that of 0x80, 0x8A, 0x01 odd. -/
theorem test_parity : (parity8 0x03 && parity8 0 && parity8 0xFF && !parity8 0x80 && !parity8 0x8A && !parity8 0x01) = true := by decide
/-- Section 2.3: the condition codes that hold after a compare of 3 with 5. -/
theorem test_conditions : (List.range 16).filter (fun k => condHolds (BitVec.ofNat 4 k) true false true false) =
    [1, 2, 3, 5, 7, 8, 12, 14] := by decide

/-! #### Program control -/

/-- PC1 -/
theorem test_call : after (code [0x5F00, 0x0200] (regs [(15, 0x8000)] base))
    (fun t => at0 t 0x7FFE == 0x104 && t.reg 15 == 0x7FFE && t.pcOff == 0x200) = true := by decide
/-- PC2 -/
theorem test_calr : after (code [0xDFF9] (regs [(15, 0x8000)] base))
    (fun t => at0 t 0x7FFE == 0x102 && t.pcOff == 0x110) = true := by decide
/-- PC3 -/
theorem test_djnz_taken : after (code [0xF282] (regs [(2, 0x0005)] { base with pcOff := 0x106 }))
    (fun t => t.reg 2 == 4 && t.pcOff == 0x104 && t.fcw == base.fcw) = true := by decide
/-- PC4 -/
theorem test_djnz_not_taken : after (code [0xF282] (regs [(2, 0x0001)] { base with pcOff := 0x106 }))
    (fun t => t.reg 2 == 0 && t.pcOff == 0x108) = true := by decide
/-- PC6 -/
theorem test_jp_taken : after (code [0x5E0E, 0x0200] base)
    (fun t => t.pcOff == 0x200) = true := by decide
/-- PC7 -/
theorem test_jp_not_taken : after (code [0x5E0E, 0x0200] { base with fcw := { base.fcw with z := true } })
    (fun t => t.pcOff == 0x104) = true := by decide
/-- PC8 -/
theorem test_jr : after (code [0xE607] { base with fcw := { base.fcw with z := true } })
    (fun t => t.pcOff == 0x110) = true := by decide
/-- PC9 -/
theorem test_ret : after (code [0x9E08] (regs [(15, 0x7FFE)] (words [(0x7FFE, 0x0104)] base)))
    (fun t => t.pcOff == 0x104 && t.reg 15 == 0x8000) = true := by decide
/-- PC10 -/
theorem test_ret_not_taken : after (code [0x9E06] (regs [(15, 0x7FFE)] base))
    (fun t => t.pcOff == 0x102 && t.reg 15 == 0x7FFE) = true := by decide
/-- PC11 -/
theorem test_jp_odd : refusedBy (code [0x5E08, 0x0201] base) .oddPc = true := by decide
/-- PC12: what does not depend on the free bits of the segment word -/
theorem test_call_segmented : after (code [0x5F00, 0x8200, 0x0300] (regs [(15, 0x8000)] base1))
    (fun t => t.reg 15 == 0x7FFC && t.pcSeg == 2 && t.pcOff == 0x300) = true := by decide
/-- PC14 -/
theorem test_iret : after (code [0x7B00] (regs [(15, 0x7FFA)] (words [(0x7FFA, 0x7F05), (0x7FFC, 0x0000), (0x7FFE, 0x0102)] base)))
    (fun t => t.fcw == Fcw.zero && t.pcOff == 0x102 && t.rs15 == 0x8000) = true := by decide

/-! #### Bit manipulation -/

/-- B1 -/
theorem test_bit_set : after (code [0xA71F] (regs [(1, 0x8000)] base))
    (fun t => !t.fcw.z) = true := by decide
/-- B2 -/
theorem test_bit_clear : after (code [0xA710] (regs [(1, 0x8000)] base))
    (fun t => t.fcw.z) = true := by decide
/-- B3 -/
theorem test_bitb_dynamic : after (code [0x2602, 0x0800] (regs [(2, 0x0003), (0, 0x0008)] base))
    (fun t => !t.fcw.z) = true := by decide
/-- B4 -/
theorem test_res : after (code [0xA314] (regs [(1, 0xFFFF)] base))
    (fun t => t.reg 1 == 0xFFEF) = true := by decide
/-- B5 -/
theorem test_res_dynamic : after (code [0x2302, 0x0100] (regs [(2, 0x0010), (1, 0x0001)] base))
    (fun t => t.reg 1 == 0) = true := by decide
/-- B6 -/
theorem test_setb : after (code [0xA417] base)
    (fun t => t.rb 1 == 0x80) = true := by decide
/-- B7 -/
theorem test_set_dynamic : after (code [0x2502, 0x0100] (regs [(2, 0x000F)] base))
    (fun t => t.reg 1 == 0x8000) = true := by decide
/-- B8 -/
theorem test_tset_free : after (code [0x4D06, 0x4000] base)
    (fun t => !t.fcw.s && at0 t 0x4000 == 0xFFFF) = true := by decide
/-- B9 -/
theorem test_tset_held : after (code [0x4D06, 0x4000] (words [(0x4000, 0xFFFF)] base))
    (fun t => t.fcw.s && at0 t 0x4000 == 0xFFFF) = true := by decide

/-! #### Rotate and shift -/

/-- H1 -/
theorem test_rl : after (code [0xB310] (regs [(1, 0x8001)] base))
    (fun t => t.reg 1 == 3 && czsv t == [true, false, false, true]) = true := by decide
/-- H2 -/
theorem test_rlcb : after (code [0xB288] (regs [(0, 0x0080)] base))
    (fun t => t.rb 8 == 0 && czsv t == [true, true, false, true]) = true := by decide
/-- H3 -/
theorem test_rr : after (code [0xB314] (regs [(1, 0x0001)] base))
    (fun t => t.reg 1 == 0x8000 && czsv t == [true, false, true, true]) = true := by decide
/-- H4: P/V is free -/
theorem test_rrc_two : after (code [0xB31E] (regs [(1, 0x0001)] base))
    (fun t => t.reg 1 == 0x8000 && !t.fcw.c && t.fcw.s) = true := by decide
/-- H5 -/
theorem test_rldb : after (code [0xBE98] (regs [(0, 0x000A), (1, 0x0012)] base))
    (fun t => t.rb 9 == 0x2A && t.rb 8 == 1 && !t.fcw.z) = true := by decide
/-- H6 -/
theorem test_rrdb : after (code [0xBC98] (regs [(0, 0x000A), (1, 0x0012)] base))
    (fun t => t.rb 9 == 0xA1 && t.rb 8 == 2) = true := by decide
/-- H7 -/
theorem test_sla : after (code [0xB319, 0x0001] (regs [(1, 0x4001)] base))
    (fun t => t.reg 1 == 0x8002 && czsv t == [false, false, true, true]) = true := by decide
/-- H8 -/
theorem test_sra : after (code [0xB319, 0xFFFF] (regs [(1, 0x8003)] base))
    (fun t => t.reg 1 == 0xC001 && czsv t == [true, false, true, false]) = true := by decide
/-- H9: P/V is free -/
theorem test_sll : after (code [0xB311, 0x0008] (regs [(1, 0x00FF)] base))
    (fun t => t.reg 1 == 0xFF00 && !t.fcw.c && t.fcw.s) = true := by decide
/-- H10 -/
theorem test_srll : after (code [0xB325, 0xFFE1] (regs [(2, 0x8000)] base))
    (fun t => t.rr 2 == 1 && !t.fcw.c) = true := by decide
/-- H11 -/
theorem test_sda : after (code [0xB31B, 0x0200] (regs [(2, 0xFFFE), (1, 0xFFF0)] base))
    (fun t => t.reg 1 == 0xFFFC && !t.fcw.c) = true := by decide
/-- H12 -/
theorem test_sdl : after (code [0xB313, 0x0200] (regs [(2, 0x0004), (1, 0x0ABC)] base))
    (fun t => t.reg 1 == 0xABC0 && !t.fcw.c && t.fcw.s) = true := by decide
/-- H13 -/
theorem test_sra_full : after (code [0xB319, 0xFFF0] (regs [(1, 0x8000)] base))
    (fun t => t.reg 1 == 0xFFFF && t.fcw.c && t.fcw.s) = true := by decide
/-- H15: C is free -/
theorem test_sll_zero : after (code [0xB311, 0x0000] (regs [(1, 0x1234)] base))
    (fun t => t.reg 1 == 0x1234 && !t.fcw.z && !t.fcw.s) = true := by decide
/-- R350: a dynamic count of 17 -/
theorem test_shift_count : refusedBy (code [0xB313, 0x0200] (regs [(2, 0x0011)] base)) .badShiftCount = true := by decide

/-! #### Block transfer and string: one iteration -/

/-- K1 -/
theorem test_cpd : after (code [0xBB18, 0x0306] (regs [(1, 0x4002), (0, 0x0005), (3, 0x0002)] (words [(0x4002, 0x0005)] base)))
    (fun t => t.fcw.z && !t.fcw.pv && t.reg 1 == 0x4000 && t.reg 3 == 1) = true := by decide
/-- K2, the first iteration: no match, so the instruction is executed again -/
theorem test_cpirb : after (code [0xBA14, 0x0386] (regs [(1, 0x5000), (3, 0x0010)] (words [(0x5000, 0x4142)] base)))
    (fun t => !t.fcw.z && t.reg 1 == 0x5001 && t.reg 3 == 0xF && t.pcOff == 0x100) = true := by decide
/-- K3, the last iteration -/
theorem test_cpsirb : after (code [0xBA16, 0x032E] (regs [(2, 0x5001), (1, 0x5101), (3, 0x0001)] (words [(0x5000, 0x4142), (0x5100, 0x4143)] base)))
    (fun t => t.fcw.z && t.fcw.pv && t.reg 2 == 0x5002 && t.reg 1 == 0x5102 && t.pcOff == 0x104) = true := by decide
/-- K4 -/
theorem test_ldi : after (code [0xBB11, 0x0328] (regs [(1, 0x4000), (2, 0x6000), (3, 0x0001)] (words [(0x4000, 0x1234)] base)))
    (fun t => at0 t 0x6000 == 0x1234 && t.reg 1 == 0x4002 && t.reg 2 == 0x6002 && t.reg 3 == 0 && t.fcw.pv) = true := by decide
/-- K9: after one iteration the PC is that of the instruction -/
theorem test_ldirb : after (code [0xBA11, 0x0320] (regs [(1, 0x4000), (2, 0x6000), (3, 0x0003)] (words [(0x4000, 0x0A0B)] base)))
    (fun t => at0 t 0x6000 == 0x0A00 && t.reg 1 == 0x4001 && t.reg 2 == 0x6001 && t.reg 3 == 2 && t.pcOff == 0x100) = true := by decide
/-- K7 -/
theorem test_trib : after (code [0xB820, 0x0340] (regs [(2, 0x5000), (4, 0x7000), (3, 0x0005)] (words [(0x5000, 0x0200), (0x7002, 0x9900)] base)))
    (fun t => at0 t 0x5000 == 0x9900 && t.reg 2 == 0x5001 && t.reg 3 == 4 && !t.fcw.pv) = true := by decide
/-- K8 -/
theorem test_trtib : after (code [0xB822, 0x0340] (regs [(1, 0xAA00), (2, 0x5000), (4, 0x7000), (3, 0x0009)] (words [(0x5000, 0x2000)] base)))
    (fun t => t.rb 1 == 0 && t.fcw.z && t.reg 2 == 0x5001 && t.reg 3 == 8 && !t.fcw.pv) = true := by decide
/-- X11 -/
theorem test_block_overlap : refusedBy (code [0xBB11, 0x0228] (regs [(1, 0x4000), (2, 0x6000)] base)) .blockRegisterOverlap = true := by decide

/-! #### Input and output -/

/-- IO1 -/
theorem test_inb : after (code [0x3C28] (regs [(2, 0x0040)] { base with portAnswers := [0x5A] }))
    (fun t => t.rb 8 == 0x5A && t.fcw == base.fcw && t.events == [.askByte .io 0x40]) = true := by decide
/-- IO2 -/
theorem test_in_port : after (code [0x3B14, 0x0012] { base with portAnswers := [0xBEEF] })
    (fun t => t.reg 1 == 0xBEEF && t.portAnswers == []) = true := by decide
/-- IO3 -/
theorem test_out : after (code [0x3F21] (regs [(2, 0x0040), (1, 0x1234)] base))
    (fun t => outputs t == [.portWord .io 0x40 0x1234]) = true := by decide
/-- IO4 -/
theorem test_outb_port : after (code [0x3A86, 0x0012] (regs [(0, 0x007E)] base))
    (fun t => outputs t == [.portByte .io 0x12 0x7E]) = true := by decide
/-- IO5 -/
theorem test_sin : after (code [0x3B15, 0x0012] { base with portAnswers := [1] })
    (fun t => t.reg 1 == 1 && t.events == [.askWord .sio 0x12]) = true := by decide
/-- IO6 -/
theorem test_sout : after (code [0x3B17, 0x0012] (regs [(1, 0x00FF)] base))
    (fun t => outputs t == [.portWord .sio 0x12 0xFF]) = true := by decide
/-- IO7, the first iteration -/
theorem test_inirb : after (code [0x3A20, 0x0340] (regs [(2, 0x0040), (4, 0x6000), (3, 0x0002)] { base with portAnswers := [0x11, 0x22] }))
    (fun t => at0 t 0x6000 == 0x1100 && t.reg 4 == 0x6001 && t.reg 3 == 1 && t.reg 2 == 0x40 && t.pcOff == 0x100) = true := by decide
/-- IO8, the last iteration -/
theorem test_otirb : after (code [0x3A42, 0x0320] (regs [(2, 0x0040), (4, 0x6001), (3, 0x0001)] (words [(0x6000, 0xAABB)] base)))
    (fun t => outputs t == [.portByte .io 0x40 0xBB] && t.reg 4 == 0x6002 && t.reg 3 == 0 && t.fcw.pv && t.pcOff == 0x104) = true := by decide

/-! #### CPU control -/

/-- CC1 -/
theorem test_comflg : after (code [0x8D85] base)
    (fun t => czsv t == [true, false, false, false]) = true := by decide
/-- CC2 -/
theorem test_resflg : after (code [0x8DC3] { base with fcw := { base.fcw with c := true, z := true, s := true } })
    (fun t => czsv t == [false, false, true, false]) = true := by decide
/-- CC3 -/
theorem test_setflg : after (code [0x8D11] base)
    (fun t => czsv t == [false, false, false, true]) = true := by decide
/-- CC4 -/
theorem test_di : after (code [0x7C01] { base with fcw := { base.fcw with vie := true, nvie := true } })
    (fun t => t.fcw.word == 0x4800) = true := by decide
/-- CC5 -/
theorem test_ei : after (code [0x7C04] base)
    (fun t => t.fcw.word == 0x5800) = true := by decide
/-- CC6 -/
theorem test_halt : after (code [0x7A00] base)
    (fun t => t.halted && t.pcOff == 0x102) = true := by decide
/-- CC7 -/
theorem test_nop : after (code [0x8D07] base)
    (fun t => t == { code [0x8D07] base with pcOff := 0x102 }) = true := by decide
/-- CC8 -/
theorem test_ldctl_psap : after (code [0x7D1D] (regs [(1, 0x4000)] base))
    (fun t => t.psapOff == 0x40) = true := by decide
/-- CC9 -/
theorem test_ldctl_read_fcw : after (code [0x7D22] { base with fcw := { base.fcw with c := true, z := true } })
    (fun t => t.reg 2 == 0x40C0) = true := by decide
/-- CC10 -/
theorem test_ldctl_read_nsp : after (code [0x7D17] (base.setRn15 0x9000))
    (fun t => t.reg 1 == 0x9000) = true := by decide
/-- CC11 -/
theorem test_ldctl_refresh : after (code [0x7D1B] (regs [(1, 0x8A55)] base))
    (fun t => t.refresh == { re := true, rate := 5, row := 0x55 }) = true := by decide
/-- CC12 -/
theorem test_ldctlb_write : after (code [0x8C89] (regs [(0, 0x0080)] base))
    (fun t => t.fcw.word == 0x4080) = true := by decide
/-- CC13 -/
theorem test_ldctlb_read : after (code [0x8C81] { base with fcw := { base.fcw with c := true, h := true } })
    (fun t => t.rb 8 == 0x84) = true := by decide
/-- CC14 -/
theorem test_ldps : after (code [0x7900, 0x3000] (words [(0x3002, 0x1000)] base))
    (fun t => t.fcw == Fcw.zero && t.pcOff == 0x1000) = true := by decide
/-- CC15 -/
theorem test_ldctl_psapseg_8002 : refusedBy (code [0x7D1C] base) .undefinedEncoding = true := by decide

/-! #### Traps and interrupts -/

/-- Rs15 = 0x8000, the new program status area at 0x2000. -/
def trapBase (off : Word) (f : Fcw) (l : List (Word × Word)) : State :=
  words l { base with pcOff := off, fcw := f, psapOff := 0x20, gr := base.gr.set 17 0x8000 }
/-- T1: SC in normal mode. -/
theorem test_sc : after (code [0x7F05] (trapBase 0x1002 Fcw.zero [(0x200C, 0x4000), (0x200E, 0x0300)]))
    (fun t => at0 t 0x7FFE == 0x1004 && at0 t 0x7FFC == 0 && at0 t 0x7FFA == 0x7F05 && t.rs15 == 0x7FFA && t.fcw.word == 0x4000 &&
      t.pcOff == 0x300 && t.rn15 == 0) = true := by decide
/-- T2: HALT in normal mode traps. -/
theorem test_privileged_halt : after (code [0x7A00] (trapBase 0x1000 Fcw.zero [(0x2008, 0x4000), (0x200A, 0x0400)]))
    (fun t => !t.halted && at0 t 0x7FFE == 0x1002 && at0 t 0x7FFC == 0 && at0 t 0x7FFA == 0x7A00 && t.rs15 == 0x7FFA &&
      t.fcw.word == 0x4000 && t.pcOff == 0x400) = true := by decide
/-- T3, P6: DI in normal mode traps and changes no enable; the saved FCW has them. -/
theorem test_privileged_di : after (code [0x7C00] (trapBase 0x1000 { Fcw.zero with vie := true, nvie := true } [(0x2008, 0x4000), (0x200A, 0x0400)]))
    (fun t => at0 t 0x7FFC == 0x1800 && at0 t 0x7FFA == 0x7C00 && t.pcOff == 0x400) = true := by decide
/-- T4: a vectored interrupt. -/
theorem test_vi : after { trapBase 0x500 { Fcw.zero with sn := true, vie := true } [(0x201C, 0x4000), (0x2026, 0x0600)] with
      requests := [{ nmi := none, vi := some 4, nvi := none }] }
    (fun t => at0 t 0x7FFE == 0x500 && at0 t 0x7FFC == 0x5000 && at0 t 0x7FFA == 4 && t.rs15 == 0x7FFA && t.fcw.word == 0x4000 &&
      t.pcOff == 0x600) = true := by decide
/-- T5: NMI first. -/
theorem test_nmi_first : after { trapBase 0x500 { Fcw.zero with sn := true, vie := true } [(0x2014, 0x4000), (0x2016, 0x0700)] with
      requests := [{ nmi := some 1, vi := some 4, nvi := some 2 }] }
    (fun t => t.pcOff == 0x700 && t.fcw.word == 0x4000) = true := by decide
/-- T6: a request that is not enabled is not accepted. -/
theorem test_vi_disabled : after { code [0x8D07] base with requests := [{ nmi := none, vi := some 4, nvi := none }] }
    (fun t => t.pcOff == 0x102 && t.fcw == base.fcw) = true := by decide
/-- T7, R520: the entries of the AMZ8001's new program status area. -/
theorem test_psa_8001 : psaFcw .amz8001 .systemCall = 26 ∧ psaPc .amz8001 .systemCall 0 = 28 ∧ psaFcw .amz8001 .vi = 58 ∧
    psaPc .amz8001 .vi 0x1204 = 68 := by decide
/-- T8: an interrupt ends a halt. -/
theorem test_nvi_ends_halt : after { trapBase 0x102 { Fcw.zero with sn := true, nvie := true } [(0x2018, 0x4000), (0x201A, 0x0800)] with
      halted := true, requests := [{ nmi := none, vi := none, nvi := some 0 }] }
    (fun t => !t.halted && at0 t 0x7FFE == 0x102 && at0 t 0x7FFC == 0x4800 && t.pcOff == 0x800) = true := by decide
/-- X8: the instruction that was just stored into is not fetched. -/
theorem test_modifies_next : refusedBy { code [0x8D07] base with stores := [0x101] } .modifiesNextInstruction = true := by decide
/-- R103: the store itself completes and is noted for the next fetch. -/
theorem test_store_noted : after (code [0x2F21] (regs [(2, 0x0102)] base)) (fun t => t.stores == [0x103, 0x102]) = true := by decide
/-- The first iteration of LDIRB notes its store and marks that the instruction repeats (R371). -/
theorem test_repeat_marked : after (code [0xBA11, 0x0320] (regs [(1, 0x4000), (2, 0x6000), (3, 2)] base))
    (fun t => t.stores == [0x6000] && t.repeating && t.pcOff == 0x100) = true := by decide
/-- K6: its last iteration keeps what the earlier ones stored, for the instruction behind it (R103). -/
theorem test_repeat_ended :
    after { code [0xBA11, 0x0320] (regs [(1, 0x4000), (2, 0x6000), (3, 1)] base) with stores := [0x104], repeating := true }
    (fun t => t.stores == [0x6000, 0x104] && !t.repeating && t.pcOff == 0x104) = true := by decide
/-- Any other instruction starts with nothing noted. -/
theorem test_stores_dropped : after { code [0x8D07] base with stores := [0x200] } (fun t => t.stores == []) = true := by decide
/-- R505, R517: a block input whose second word is no encoding traps in normal mode; with next_instruction the PC saved is past both words. -/
theorem test_privileged_undecodable : after { code [0x3B20, 0x1340] (trapBase 0x1000 Fcw.zero [(0x2008, 0x4000), (0x200A, 0x0400)]) with
      cfg := { Config.amz8002 with privTrapPc := .nextInstruction } }
    (fun t => at0 t 0x7FFE == 0x1004 && at0 t 0x7FFA == 0x3B20 && t.pcOff == 0x400) = true := by decide
/-- R103: it does not trap when its second word was just stored. -/
theorem test_privileged_modified : refusedBy { code [0x3B20, 0x1340] (trapBase 0x1000 Fcw.zero [(0x2008, 0x4000), (0x200A, 0x0400)]) with
      stores := [0x1003] } .modifiesNextInstruction = true := by decide


/-! ### Witnesses: concrete states and operands that meet the hypotheses of the statements, clause by clause -/

/-- The AMZ8002 in normal mode. -/
def user : State := { base with fcw := Fcw.zero }
/-- The AMZ8001 in non-segmented system mode, segment 1. -/
def flat1 : State := { base1 with fcw := { Fcw.zero with sn := true } }
/-- The AMZ8001 in segmented normal mode. -/
def user1 : State := { base1 with fcw := { Fcw.zero with seg := true } }
/-- An address in segment 0. -/
def a0 (off : Word) : Address := { seg := 0, off := off }
/-- No request is accepted. -/
def quiet (s : State) : Bool := (acceptedRequest s.presented s.fcw).isNone
/-- Words placed in memory, segment 1. -/
def words1 (l : List (Word × Word)) (s : State) : State :=
  { l.foldl (fun s p => s.putWord { seg := 1, off := p.1 } p.2) s with stores := [] }
/-- The AMZ8001 with the system stack at segment 1, offset 0x8000, and the new program status area at segment 2, offset 0x2000. -/
def trapBase1 (f : Fcw) (l : List (Word × Word)) : State :=
  { l.foldl (fun s p => s.putWord { seg := 2, off := p.1 } p.2)
      { base1 with fcw := f, psapSeg := 2, psapOff := 0x20, gr := (base1.gr.set 16 0x0100).set 17 0x8000 } with stores := [] }
/-- Normal mode on the AMZ8002, an entry for each privileged trap and system call. -/
def trapUser : State := trapBase 0x1002 Fcw.zero [(0x2008, 0x4000), (0x200A, 0x0400), (0x200C, 0x4000), (0x200E, 0x0300)]
/-- Normal mode on the AMZ8001, an entry for each privileged trap and system call. -/
def trapUser1 : State := trapBase1 { Fcw.zero with seg := true }
  [(0x2012, 0xC000), (0x2014, 0x0200), (0x2016, 0x0400), (0x201A, 0xC000), (0x201C, 0x0200), (0x201E, 0x0300)]

theorem witness_EncodeDecodeRoundTrip :
    wellFormed false (.ld 1 (.imm 0xFFFF)) = true ∧ wellFormed true (.add 15 (.mem (.x (.long 127 0xFFFF) 15))) = true := by decide
theorem witness_DecodedIsWellFormed :
    decode false [0x2101, 0x1234, 0x8D07] = .ok (.ld 1 (.imm 0x1234), [0x8D07]) ∧
    decode true [0x6101, 0x8100, 0x1234] = .ok (.ld 1 (.mem (.mem (.da (.long 1 0x1234)))), []) := by decide
theorem witness_PrivilegedFirstWordsAreSystem :
    (decode false [0x7A00] = .ok (.halt, []) ∧ isSystem .halt = true) ∧ decode false [0x8D07] = .ok (.nop, []) ∧
    (decode true [0x7900, 0x8100, 0x1234] = .ok (.ldps (.da (.long 1 0x1234)), []) ∧
      isSystem (.ldps (.da (.long 1 0x1234))) = true) := by decide

/-- A one-word instruction at the last even offset, a store right behind a two-word one, and the next iteration of a repeating one. -/
theorem witness_StepRunsDecodedInstruction :
    let s := code [0x8D07] { base with pcOff := 0xFFFE }
    let u := { code [0x2101, 0x1234] base with stores := [0x104, 0xFF] }
    let v := { code [0xBA11, 0x0320] base with stores := [0x104, 0xFF], repeating := true }
    (s.halted = false ∧ acceptedRequest s.presented s.fcw = none ∧ s.pc.isEven = true ∧
      decode s.segmented s.fetchWords = .ok (.nop, s.fetchWords.drop 1) ∧
      ∀ k, k < 2 * lengthOf .nop → s.key (s.pc.plus (BitVec.ofNat 16 k)) ∉ s.stores) ∧
    (u.halted = false ∧ acceptedRequest u.presented u.fcw = none ∧ u.pc.isEven = true ∧
      decode u.segmented u.fetchWords = .ok (.ld 1 (.imm 0x1234), u.fetchWords.drop 2) ∧
      ∀ k, k < 2 * lengthOf (.ld 1 (.imm 0x1234)) → u.key (u.pc.plus (BitVec.ofNat 16 k)) ∉ u.stores) ∧
    (v.halted = false ∧ acceptedRequest v.presented v.fcw = none ∧ v.pc.isEven = true ∧
      decode v.segmented v.fetchWords = .ok (.ldirb 2 1 3, v.fetchWords.drop 2) ∧
      ∀ k, k < 2 * lengthOf (.ldirb 2 1 3) → v.key (v.pc.plus (BitVec.ofNat 16 k)) ∉ v.stores) := by decide

/-- The three requests, each with those before it absent or not enabled, and none. -/
theorem witness_InterruptPriority :
    let off : Fcw := Fcw.zero
    let on : Fcw := { Fcw.zero with vie := true, nvie := true }
    let q : Requests := { nmi := none, vi := some 4, nvi := some 2 }
    ({ q with nmi := some 1 } : Requests).nmi = some 1 ∧
    (q.nmi = none ∧ q.vi = some 4 ∧ on.vie = true) ∧
    (q.nmi = none ∧ (q.vi = none ∨ ({ on with vie := false } : Fcw).vie = false) ∧ q.nvi = some 2 ∧ ({ on with vie := false } : Fcw).nvie = true) ∧
    (q.nmi = none ∧ (q.vi = none ∨ off.vie = false) ∧ (q.nvi = none ∨ off.nvie = false)) := by decide

/-- A vectored interrupt on the AMZ8002, halted, and an NMI on the AMZ8001. -/
theorem witness_InterruptIsEntered :
    let s := { trapBase 0x500 { Fcw.zero with sn := true, vie := true } [(0x201C, 0x4000), (0x2026, 0x0600)] with
      halted := true, requests := [{ nmi := none, vi := some 4, nvi := none }] }
    let u := { trapBase1 { Fcw.zero with seg := true } [(0x202A, 0xC000), (0x202C, 0x0200), (0x202E, 0x0700)] with
      requests := [{ nmi := some 1, vi := none, nvi := none }] }
    (acceptedRequest s.presented s.fcw = some (.vi, 4) ∧ s.trapReady .vi 4 = true) ∧
    (acceptedRequest u.presented u.fcw = some (.nmi, 1) ∧ u.trapReady .nmi 1 = true) := by decide

theorem witness_WaitingAndFetchStops :
    let h := { base with halted := true }
    let o := { base with pcOff := 0xFFFF }
    let x := code [0x3600] base
    let y := code [0x3600] user
    let m := { code [0x2101, 0x1234] base with stores := [0x103] }
    (h.halted = true ∧ acceptedRequest h.presented h.fcw = none) ∧
    (o.halted = false ∧ acceptedRequest o.presented o.fcw = none ∧ o.pc.isEven = false) ∧
    (x.halted = false ∧ acceptedRequest x.presented x.fcw = none ∧ x.pc.isEven = true ∧
      decode x.segmented x.fetchWords = .error .undefinedEncoding ∧ x.fcw.sn = true) ∧
    (y.halted = false ∧ acceptedRequest y.presented y.fcw = none ∧ y.pc.isEven = true ∧
      decode y.segmented y.fetchWords = .error .undefinedEncoding ∧ privilegedFirstWord (y.wordAt y.pc) = false) ∧
    (m.halted = false ∧ acceptedRequest m.presented m.fcw = none ∧ m.pc.isEven = true ∧
      decode m.segmented m.fetchWords = .ok (.ld 1 (.imm 0x1234), m.fetchWords.drop 2) ∧ 3 < 2 * lengthOf (.ld 1 (.imm 0x1234)) ∧
      m.key (m.pc.plus (BitVec.ofNat 16 3)) ∈ m.stores) := by decide
/-- A block input whose second word is no encoding, in normal mode on both parts: its second word just stored, and not. -/
theorem witness_WaitingAndFetchStops_trap :
    let s := code [0x3B20, 0x1340] trapUser
    let m := { s with stores := [0x1005] }
    let u := { trapUser1.placeWords trapUser1.pc [0x7910, 0x8101] with cfg := { trapUser1.cfg with privTrapPc := .nextInstruction }, stores := [0x10106] }
    (s.halted = false ∧ acceptedRequest s.presented s.fcw = none ∧ s.pc.isEven = true ∧
      decode s.segmented s.fetchWords = .error .undefinedEncoding ∧ s.fcw.sn = false ∧ privilegedFirstWord (s.wordAt s.pc) = true) ∧
    (∀ k, k < 2 * s.privilegedWords → s.key (s.pc.plus (BitVec.ofNat 16 k)) ∉ s.stores) ∧
    s.trapReady .privilegedInstruction (s.wordAt s.pc) = true ∧
    (decode m.segmented m.fetchWords = .error .undefinedEncoding ∧ 3 < 2 * m.privilegedWords ∧
      m.key (m.pc.plus (BitVec.ofNat 16 3)) ∈ m.stores) ∧
    (decode u.segmented u.fetchWords = .error .undefinedEncoding ∧ u.fcw.sn = false ∧ privilegedFirstWord (u.wordAt u.pc) = true ∧
      u.privilegedWords = 3 ∧ (∀ k, k < 2 * u.privilegedWords → u.key (u.pc.plus (BitVec.ofNat 16 k)) ∉ u.stores) ∧
      u.trapReady .privilegedInstruction (u.wordAt u.pc) = true) := by decide

theorem witness_StepKeepsInvariant :
    let s := code [0x8D07] base
    let u := code [0xBD35] base1
    (s.inv = true ∧ step s = .next { s with pcOff := 0x102 }) ∧
    (u.inv = true ∧ step u = .next { u.setReg 3 5 with pcOff := 0x102 }) := ⟨⟨by decide, rfl⟩, by decide, rfl⟩

/-- The FCW at 2 and the PC at 4 and 6 on the AMZ8001, the FCW at 0 and the PC at 2 on the AMZ8002; even and odd. -/
theorem witness_ResetLoadsStatus :
    let s := words [(2, 0xF8FC), (4, 0x0100), (6, 0xFFFE)] base1
    let u := words [(0, 0xC000), (2, 0x0100)] base
    let v := words [(2, 0x4000), (6, 0x0001)] base1
    let w := words [(0, 0x4000), (2, 0xFFFF)] base
    let x := words [(2, 0x4100)] base1
    let y := words [(0, 0x0001)] base
    (s.cfg = Config.amz8001 ∧ fcwReservedClear (s.wordAt ⟨0, 2⟩) = true ∧ (s.wordAt ⟨0, 6⟩).getLsbD 0 = false) ∧
    (v.cfg = Config.amz8001 ∧ fcwReservedClear (v.wordAt ⟨0, 2⟩) = true ∧ (v.wordAt ⟨0, 6⟩).getLsbD 0 = true) ∧
    (u.cfg = Config.amz8002 ∧ fcwReservedClear (u.wordAt ⟨0, 0⟩) = true ∧ (u.wordAt ⟨0, 2⟩).getLsbD 0 = false) ∧
    (w.cfg = Config.amz8002 ∧ fcwReservedClear (w.wordAt ⟨0, 0⟩) = true ∧ (w.wordAt ⟨0, 2⟩).getLsbD 0 = true) ∧
    (x.cfg = Config.amz8001 ∧ fcwReservedClear (x.wordAt ⟨0, 2⟩) = false) ∧
    (y.cfg = Config.amz8002 ∧ fcwReservedClear (y.wordAt ⟨0, 0⟩) = false) := by decide

/-- A word destination; byte destinations RH1, RL7 and both bytes of a digit rotate; a trap. -/
theorem witness_RegisterFrame :
    (exec (.ld 1 (.imm 0x1234)) base = .next (base.setReg 1 0x1234) ∧ (2 : Fin 18) ∉ changedRegs (.ld 1 (.imm 0x1234)) base ∧
      ((2 : Fin 18), true) ∉ changedHalves (.ld 1 (.imm 0x1234)) base) ∧
    (exec (.ldb 1 (.imm 0x12)) base = .next (base.setRb 1 0x12) ∧ ((1 : Fin 18), true) ∉ changedHalves (.ldb 1 (.imm 0x12)) base ∧
      ((1 : Fin 18), false) ∈ changedHalves (.ldb 1 (.imm 0x12)) base) ∧
    (exec (.clrb (.reg 15)) base = .next (base.setRb 15 0) ∧ ((7 : Fin 18), false) ∉ changedHalves (.clrb (.reg 15)) base ∧
      ((7 : Fin 18), true) ∈ changedHalves (.clrb (.reg 15)) base) ∧
    ((∃ t, exec (.rldb 1 10) base = .next t) ∧ ((1 : Fin 18), true) ∉ changedHalves (.rldb 1 10) base ∧
      ((2 : Fin 18), false) ∉ changedHalves (.rldb 1 10) base) ∧
    ((∃ t, exec .halt trapUser = .next t) ∧ ((15 : Fin 18), true) ∉ changedHalves .halt trapUser) :=
  ⟨⟨rfl, by decide⟩, ⟨rfl, by decide⟩, ⟨rfl, by decide⟩, ⟨⟨_, rfl⟩, by decide⟩, ⟨_, rfl⟩, by decide⟩
/-- A store of the last word of the address space: the byte before it and the first byte are outside. -/
theorem witness_MemoryFrame :
    let i : Instr := .ldStore (.mem (.da (.plain 0xFFFE))) 1
    let s := regs [(1, 0xABCD)] base
    exec i s = .next (s.putWord (a0 0xFFFE) 0xABCD) ∧ s.key (a0 0xFFFD) ∉ storedKeys i s ∧ s.key (a0 0) ∉ storedKeys i s ∧
      s.key (a0 0xFFFF) ∈ storedKeys i s := ⟨rfl, by decide⟩
theorem witness_FcwFrame :
    exec (.setflg 8) base = .next { base with fcw := { base.fcw with c := true } } ∧ FcwBit.z ∉ changedBits (.setflg 8) base :=
  ⟨rfl, by decide⟩
/-- An instruction that names no special state, two that trap, HALT, and an iteration of a repeating form. -/
theorem witness_SpecialStateFrame :
    (exec (.ldk 3 5) base = .next (base.setReg 3 5) ∧ (∀ c r, Instr.ldk 3 5 ≠ .ldctlWrite c r) ∧ traps (.ldk 3 5) base = false ∧
      Instr.ldk 3 5 ≠ .halt ∧ readsPort (.ldk 3 5) = false ∧ writesPort (.ldk 3 5) = false ∧ writesLine (.ldk 3 5) = false ∧
      changesPcSeg (.ldk 3 5) = false ∧ changesPcOff (.ldk 3 5) = false ∧ repeats (.ldk 3 5) = false) ∧
    (traps .halt trapUser = true ∧ ∃ t, exec .halt trapUser = .next t) ∧
    (traps (.ldctlWrite .psapoff 1) trapUser = true ∧ ∃ t, exec (.ldctlWrite .psapoff 1) trapUser = .next t) ∧
    (traps .halt base = false ∧ exec .halt base = .next { base with halted := true }) ∧
    (traps (.ldirb 2 1 3) base = false ∧ repeats (.ldirb 2 1 3) = true ∧ ∃ t, exec (.ldirb 2 1 3) base = .next t) :=
  ⟨⟨rfl, fun _ _ => nofun, by decide⟩, ⟨by decide, _, rfl⟩, ⟨by decide, _, rfl⟩, ⟨by decide, rfl⟩, by decide, by decide, _, rfl⟩
theorem witness_NormalModeKeepsControl :
    user.fcw.sn = false ∧ traps (.setflg 8) user = false ∧
      exec (.setflg 8) user = .next { user with fcw := { user.fcw with c := true } } := ⟨rfl, rfl, rfl⟩

/-- Both parts; the system stack pointer of the AMZ8002 also where the frame wraps. -/
theorem witness_SystemCallTraps :
    trapUser.trapReady .systemCall (0x7F#8 ++ 0xFF#8) = true ∧ trapUser1.trapReady .systemCall (0x7F#8 ++ 0x00#8) = true ∧
    ({ trapUser with gr := trapUser.gr.set 17 0 } : State).trapReady .systemCall (0x7F#8 ++ 0x00#8) = true := by decide
theorem witness_SystemInstructionsTrapInNormalMode :
    (isSystem .halt = true ∧ trapUser.fcw.sn = false ∧ trapUser.trapReady .privilegedInstruction (firstWord .halt) = true) ∧
    (let i : Instr := .inir 4 2 3
     let s : State := { trapUser1 with cfg := { trapUser1.cfg with privTrapPc := .nextInstruction } }
     isSystem i = true ∧ s.fcw.sn = false ∧ s.trapReady .privilegedInstruction (firstWord i) = true) := by decide
theorem witness_ReturnUndoesTrapEntry :
    ∃ t, trapUser.trapEntry .systemCall 0x7F05 0x1002 = .ok t ∧ trapUser.mem.wf = true ∧ (0x1002 : Word).getLsbD 0 = false ∧
      t.fcw.sn = true ∧ (trapUser.cfg.variant = .amz8001 → t.fcw.seg = true) := ⟨_, rfl, by decide⟩
/-- The AMZ8002, the AMZ8001 without segmentation, and with it. -/
theorem witness_ReturnFromInterrupt :
    let s := words [(0xFFFE, 0xF8FC), (0, 0x0100)] { base with gr := base.gr.set 17 0xFFFC }
    let f := words1 [(0x8002, 0x4000), (0x8004, 0xFFFE)] { flat1 with gr := flat1.gr.set 17 0x8000 }
    let u := words1 [(0x8002, 0x8000), (0x8004, 0x0200), (0x8006, 0x0102)] { base1 with gr := (base1.gr.set 16 0x0100).set 17 0x8000 }
    (s.fcw.sn = true ∧ s.segmented = false ∧ s.rs15.getLsbD 0 = false ∧ fcwReservedClear (s.wordAt ⟨s.pcSeg, s.rs15 + 2⟩) = true ∧
      (s.wordAt ⟨s.pcSeg, s.rs15 + 4⟩).getLsbD 0 = false) ∧
    (f.fcw.sn = true ∧ f.segmented = false ∧ f.rs15.getLsbD 0 = false ∧ fcwReservedClear (f.wordAt ⟨f.pcSeg, f.rs15 + 2⟩) = true ∧
      (f.wordAt ⟨f.pcSeg, f.rs15 + 4⟩).getLsbD 0 = false) ∧
    (u.fcw.sn = true ∧ u.segmented = true ∧ u.rs15.getLsbD 0 = false ∧ fcwReservedClear (u.wordAt ⟨segOf u.rs14, u.rs15 + 2⟩) = true ∧
      (u.wordAt ⟨segOf u.rs14, u.rs15 + 6⟩).getLsbD 0 = false) := by decide

/-- The last even address, where the offset of a long word wraps, and odd addresses. -/
theorem witness_MemoryIsBigEndian :
    base.mem.wf = true ∧ (a0 0xFFFE).isEven = true ∧ (a0 0xFFFF).isEven = false ∧ (a0 1).isEven = false ∧
      base.key (a0 2) ≠ base.key (a0 0xFFFE) ∧ base.key (a0 2) ≠ base.key ⟨0, 0xFFFE + 1⟩ ∧
      (∀ k, k < 4 → base.key (a0 2) ≠ base.key ⟨0, 0xFFFE + BitVec.ofNat 16 k⟩) ∧
      base1.cfg.variant = .amz8001 ∧ base.cfg.variant = .amz8002 := by decide
theorem witness_EffectiveAddresses :
    base.segmented = false ∧ flat1.segmented = false ∧ base1.segmented = true ∧
    (14 : RegCode).getLsbD 0 = false ∧ (15 : RegCode).getLsbD 0 = true ∧
    (base.ea (.da (.plain 0xFFFE)) = .ok (a0 0xFFFE) ∧ (a0 0xFFFE).isEven = true) ∧
    (base.ea (.da (.plain 0xFFFF)) = .ok (a0 0xFFFF) ∧ (a0 0xFFFF).isEven = false) ∧
    base1.eaLd (.mem (.da (.long 127 0xFFFE))) = .ok ⟨127, 0xFFFE⟩ ∧ base1.eaLd (.ba 14 0xFFFF) = .ok (a0 0xFFFF) := by decide
/-- A word with one reserved bit of each group, and the words and bytes with every other bit set. -/
theorem witness_FcwWordRules :
    (0x0100 : Word).extractLsb' 8 3 ≠ 0 ∧ (0x0001 : Word).extractLsb' 0 2 ≠ 0 ∧
    ((0xF8FC : Word).extractLsb' 8 3 = 0 ∧ (0xF8FC : Word).extractLsb' 0 2 = 0) ∧
    (0x02 : Byte).extractLsb' 0 2 ≠ 0 ∧ (0xFC : Byte).extractLsb' 0 2 = 0 := by decide

theorem witness_LoadsPutTheOperand :
    readLdSrc wordWidth base (.reg 15) = .ok 0 ∧ readLdSrc wordWidth base (.mem (.mem (.da (.plain 0xFFFE)))) = .ok 0 ∧
    readLdSrc byteWidth base (.mem (.ba 2 0xFFFF)) = .ok 0 ∧
    ((14 : RegCode).getLsbD 0 = false ∧ readLdSrc longWidth base1 (.mem (.bx 2 3)) = .ok 0) ∧
    (base.pcOff + 0xFFFE).getLsbD 0 = false ∧
    (base.segmented = false ∧ base.eaLda (.x (.plain 0xFFFF) 1) = .ok (a0 0xFFFF)) ∧
    (base1.segmented = true ∧ (14 : RegCode).getLsbD 0 = false ∧ base1.eaLda (.da (.long 127 0xFFFF)) = .ok ⟨127, 0xFFFF⟩) := by decide
theorem witness_StoresPutTheRegister :
    (base.mem.wf = true ∧ base.eaLd (.mem (.da (.plain 0xFFFE))) = .ok (a0 0xFFFE) ∧ (a0 0xFFFE).isEven = true) ∧
    (base1.mem.wf = true ∧ base1.eaLd (.ba 2 0xFFFF) = .ok (a0 0xFFFF)) ∧ (14 : RegCode).getLsbD 0 = false ∧
    (base.ea (.da (.plain 0xFFFE)) = .ok (a0 0xFFFE) ∧ base.ea (.x (.plain 0xFFFF) 1) = .ok (a0 0xFFFF)) ∧
    (base.pcOff + 0xFFFE).getLsbD 0 = false := by decide
theorem witness_ClearAndExchange :
    base.mem.wf = true ∧ readRegMem wordWidth base (.mem (.da (.plain 0xFFFE))) = .ok 0 ∧
    readRegMem byteWidth base (.mem (.da (.plain 0xFFFF))) = .ok 0 ∧
    (base.ea (.da (.plain 0xFFFE)) = .ok (a0 0xFFFE) ∧ (a0 0xFFFE).isEven = true) ∧ base.ea (.da (.plain 0xFFFF)) = .ok (a0 0xFFFF) := by decide
theorem witness_LoadMultipleMovesEachWord :
    base.mem.wf = true ∧ base.ea (.da (.plain 0xFFFE)) = .ok (a0 0xFFFE) ∧ (a0 0xFFFE).isEven = true ∧ 15 ≤ (15 : BitVec 4).toNat := by decide
/-- A stack that wraps at offset 0; on the AMZ8001 the implied pair; and the overlaps of each shape. -/
theorem witness_PushAndPop :
    (base.mem.wf = true ∧ overlap (base.addrRegs 15) (base.operandRegs false (.reg 1)) = false ∧ base.addrReg 15 = .ok (a0 0) ∧
      (a0 0).isEven = true ∧ readRegMem wordWidth base (.reg 1) = .ok 0) ∧
    (overlap (base1.addrRegs 14) (base1.operandRegs true (.mem (.ir 2))) = false ∧ base1.addrReg 14 = .ok (a0 0) ∧
      readRegMem longWidth base1 (.mem (.ir 2)) = .ok 0) ∧
    (overlap (base.addrRegs 15) [1] = false ∧ overlap (base.addrRegs 15) [2, 2 + 1] = false ∧ (2 : RegCode).getLsbD 0 = false) ∧
    (overlap (base.addrRegs 15) (base.operandRegs false (.mem (.ir 2))) = false ∧
      overlap (base.addrRegs 15) (base.operandRegs true (.mem (.ir 2))) = false ∧ base.ea (.ir 2) = .ok (a0 0)) ∧
    (overlap (base.addrRegs 15) (base.operandRegs false (.mem (.ir 15))) = true ∧
      overlap (base.addrRegs 15) (base.operandRegs true (.reg 14)) = true ∧
      overlap (base1.addrRegs 14) (base1.operandRegs false (.reg 15)) = true) := by decide

theorem witness_AdditionHelper : (8 : Nat) = 8 ∨ 8 = 16 ∨ 8 = 32 := by decide
theorem witness_SubtractionHelper : (32 : Nat) = 8 ∨ 32 = 16 ∨ 32 = 32 := by decide
theorem witness_AdditionsAddAndSetFlags :
    readSrc wordWidth base (.imm 0xFFFF) = .ok 0xFFFF ∧ readSrc byteWidth base (.mem (.da (.plain 0xFFFF))) = .ok 0 ∧
    ((14 : RegCode).getLsbD 0 = false ∧ readSrc longWidth base (.mem (.da (.plain 0xFFFE))) = .ok 0) := by decide
theorem witness_SubtractionsSubtractAndSetFlags :
    readSrc wordWidth base (.mem (.da (.plain 0xFFFE))) = .ok 0 ∧ readSrc byteWidth base (.imm 0x80) = .ok 0x80 ∧
    ((14 : RegCode).getLsbD 0 = false ∧ readSrc longWidth base (.imm 0x80000000) = .ok 0x80000000) := by decide
theorem witness_ComparesSetFlagsOnly :
    readSrc wordWidth base (.reg 15) = .ok 0 ∧ readSrc byteWidth base (.reg 15) = .ok 0 ∧
    ((14 : RegCode).getLsbD 0 = false ∧ readSrc longWidth base (.reg 14) = .ok 0) ∧
    (base.ea (.da (.plain 0xFFFE)) = .ok (a0 0xFFFE) ∧ (a0 0xFFFE).isEven = true) ∧ base.ea (.da (.plain 0xFFFF)) = .ok (a0 0xFFFF) := by decide
theorem witness_IncrementDecrementNegate :
    base.mem.wf = true ∧ readRegMem wordWidth base (.mem (.da (.plain 0xFFFE))) = .ok 0 ∧
    readRegMem byteWidth (regs [(0, 0x0080)] base) (.reg 8) = .ok 0x80 := by decide
theorem witness_MultiplicationIsExact :
    ((14 : RegCode).getLsbD 0 = false ∧ readSrc wordWidth base (.imm 0x8000) = .ok 0x8000) ∧
    ((12 : RegCode).getLsbD 0 = false ∧ (12 : RegCode).getLsbD 1 = false ∧ readSrc longWidth base (.imm 0x80000000) = .ok 0x80000000) := by decide
/-- A quotient of 32767, one of 32768 that does not fit, and a divisor of 0; the same for DIVL. -/
theorem witness_DivisionGivesQuotientAndRemainder :
    let s := regs [(2, 0), (3, 0x7FFF)] base
    let u := regs [(2, 0), (3, 0x8000)] base
    let v := regs [(6, 0x7FFF), (7, 0xFFFF)] base
    let w := regs [(6, 0x8000), (7, 0x0000)] base
    ((2 : RegCode).getLsbD 0 = false ∧ readSrc wordWidth s (.imm 1) = .ok 1 ∧ (1 : Word) ≠ 0 ∧
      fitsSigned 16 ((s.rr 2).toInt.tdiv (1 : Word).toInt)) ∧
    ¬ fitsSigned 16 ((u.rr 2).toInt.tdiv (1 : Word).toInt) ∧ readSrc wordWidth s (.imm 0) = .ok 0 ∧
    ((4 : RegCode).getLsbD 0 = false ∧ (4 : RegCode).getLsbD 1 = false ∧ readSrc longWidth v (.imm 1) = .ok 1 ∧ (1 : Long) ≠ 0 ∧
      fitsSigned 32 ((v.rq 4).toInt.tdiv (1 : Long).toInt)) ∧
    ¬ fitsSigned 32 ((w.rq 4).toInt.tdiv (1 : Long).toInt) ∧ readSrc longWidth v (.imm 0) = .ok 0 := by
  simp only [fitsSigned]; decide
theorem witness_SignExtension :
    (14 : RegCode).getLsbD 0 = false ∧ (12 : RegCode).getLsbD 0 = false ∧ (12 : RegCode).getLsbD 1 = false := by decide
theorem witness_DecimalAdjust : (dabRow base.fcw.da base.fcw.c base.fcw.h (base.rb 0)).isSome = true := by decide
theorem witness_DecimalAdditionAndSubtraction :
    (regs [(0, 0x9900)] base).rb 0 = BitVec.ofNat 8 (16 * 9 + 9) ∧ (regs [(0, 0x9900)] base).rb 8 = BitVec.ofNat 8 (16 * 0 + 0) := by decide

theorem witness_LogicalOperations :
    base.mem.wf = true ∧ readSrc wordWidth base (.imm 0x8000) = .ok 0x8000 ∧ readSrc byteWidth base (.imm 0x80) = .ok 0x80 ∧
    readRegMem wordWidth base (.mem (.da (.plain 0xFFFE))) = .ok 0 ∧ readRegMem byteWidth base (.mem (.da (.plain 0xFFFF))) = .ok 0 ∧
    readRegMem longWidth base (.reg 14) = .ok 0 := by decide
theorem witness_CompareConditionsMeanOrder : (16 : Nat) = 8 ∨ 16 = 16 ∨ 16 = 32 := by decide

/-- The condition false, and true with an even and an odd target. -/
theorem witness_JumpsTransferControl :
    (base.ea (.da (.plain 0xFFFE)) = .ok (a0 0xFFFE) ∧ base.fcw.cond 0 = false ∧ base.fcw.cond 8 = true ∧ (a0 0xFFFE).isEven = true) ∧
    (base.ea (.da (.plain 0xFFFF)) = .ok (a0 0xFFFF) ∧ (a0 0xFFFF).isEven = false) := by decide
theorem witness_CallsAndReturns :
    (base.mem.wf = true ∧ base.segmented = false ∧ base.ea (.da (.plain 0xFFFE)) = .ok (a0 0xFFFE) ∧ (a0 0xFFFE).isEven = true ∧
      base.addrReg 15 = .ok (a0 0) ∧ (a0 0).isEven = true) ∧
    (base1.mem.wf = true ∧ base1.segmented = true ∧ base1.ea (.da (.long 127 0xFFFE)) = .ok ⟨127, 0xFFFE⟩ ∧
      base1.addrReg 14 = .ok (a0 0)) ∧
    (base.addrReg base.spCode = .ok (a0 0) ∧ base1.addrReg base1.spCode = .ok (a0 0)) ∧
    base.fcw.cond 0 = false ∧
    (base.fcw.cond 8 = true ∧ (base.wordAt (a0 0)).getLsbD 0 = false ∧ base1.fcw.cond 8 = true ∧ (base1.wordAt ⟨0, 0 + 2⟩).getLsbD 0 = false) := by decide
theorem witness_ReturnUndoesCall :
    (base.mem.wf = true ∧ base.pc.isEven = true ∧ base.ea (.da (.plain 0xFFFE)) = .ok (a0 0xFFFE) ∧ (a0 0xFFFE).isEven = true ∧
      base.addrReg base.spCode = .ok (a0 0) ∧ (a0 0).isEven = true) ∧
    (base1.pc.isEven = true ∧ base1.ea (.da (.short 2 0xFE)) = .ok ⟨2, 0xFE⟩ ∧ base1.addrReg base1.spCode = .ok (a0 0)) := by decide

theorem witness_BitOperations :
    base.mem.wf = true ∧ readRegMem wordWidth base (.mem (.da (.plain 0xFFFE))) = .ok 0 ∧
    ((7 : BitVec 4).getLsbD 3 = false ∧ readRegMem byteWidth base (.mem (.da (.plain 0xFFFF))) = .ok 0) := by decide
/-- Counts of the width and one more, static and dynamic, and of both signs. -/
theorem witness_ShiftsShift :
    (0 ≤ 16 ∧ 16 ≤ 16 ∧ 16 < 17) ∧ (8 ≤ 8 ∧ 8 < 9) ∧ ((14 : RegCode).getLsbD 0 = false ∧ 32 ≤ 32 ∧ 32 < 33) ∧
    (((regs [(2, 0xFFF0)] base).reg 2).toInt.natAbs ≤ 16 ∧ 16 < ((regs [(2, 0x0011)] base).reg 2).toInt.natAbs) ∧
    ((((regs [(2, 0x00F8)] base).reg 2).extractLsb' 0 8).toInt = -8 ∧ (-8 : Int).natAbs ≤ 8 ∧
      (((regs [(2, 0x0009)] base).reg 2).extractLsb' 0 8).toInt = 9 ∧ 8 < (9 : Int).natAbs) ∧
    (((regs [(2, 0x0020)] base).reg 2).toInt.natAbs ≤ 32 ∧ 32 < ((regs [(2, 0xFFDF)] base).reg 2).toInt.natAbs) := by decide
/-- The two field orders. -/
theorem witness_DigitRotatesMoveDigits :
    let o : State := { base with cfg := { base.cfg with rldbFieldOrder := .linkThenSrc } }
    ((base.cfg.rldbFieldOrder = .srcThenLink → (8 : RegCode) = 8 ∧ (9 : RegCode) = 9) ∧
      (base.cfg.rldbFieldOrder = .linkThenSrc → (8 : RegCode) = 9 ∧ (9 : RegCode) = 8) ∧ (8 : RegCode) ≠ 9) ∧
    ((o.cfg.rldbFieldOrder = .srcThenLink → (9 : RegCode) = 8 ∧ (8 : RegCode) = 9) ∧
      (o.cfg.rldbFieldOrder = .linkThenSrc → (9 : RegCode) = 9 ∧ (8 : RegCode) = 8) ∧ (9 : RegCode) ≠ 8) := by decide

/-- The registers of the block witnesses: source at 0xFFFE, destination at 0x6000, a count of 1. -/
def block : State := regs [(1, 0xFFFE), (2, 0x6000), (3, 1)] base
theorem witness_BlockLoadsMoveOneElement :
    (block.mem.wf = true ∧ disjoint3 (block.addrRegs 1) (block.addrRegs 2) [3] = true ∧ block.addrReg 1 = .ok (a0 0xFFFE) ∧
      block.addrReg 2 = .ok (a0 0x6000) ∧ (a0 0xFFFE).isEven = true ∧ (a0 0x6000).isEven = true) ∧
    (disjoint3 (base1.addrRegs 2) (base1.addrRegs 4) [6] = true ∧ base1.addrReg 2 = .ok (a0 0) ∧ base1.addrReg 4 = .ok (a0 0)) := by decide
theorem witness_BlockComparesCompareOneElement :
    (disjoint3 (block.addrRegs 1) [0] [3] = true ∧ block.addrReg 1 = .ok (a0 0xFFFE) ∧ (a0 0xFFFE).isEven = true) ∧
    disjoint3 (block.addrRegs 1) [byteHome 8] [3] = true ∧
    (disjoint3 (block.addrRegs 1) (block.addrRegs 2) [3] = true ∧ block.addrReg 2 = .ok (a0 0x6000) ∧ (a0 0x6000).isEven = true) := by decide
theorem witness_TranslatesUseTheTable :
    let s := regs [(2, 0xFFFF), (4, 0x7000), (3, 1)] base
    (s.mem.wf = true ∧ disjoint3 (s.addrRegs 2) (s.addrRegs 4) [3] = true ∧ (s.segmented = false → (2 : RegCode) ≠ 1 ∧ (4 : RegCode) ≠ 1) ∧
      s.addrReg 2 = .ok (a0 0xFFFF) ∧ s.addrReg 4 = .ok (a0 0x7000)) ∧
    (1 ∉ s.addrRegs 2 ∧ 1 ∉ s.addrRegs 4 ∧ (3 : RegCode) ≠ 1) ∧
    (disjoint3 (base1.addrRegs 2) (base1.addrRegs 4) [6] = true ∧ 1 ∉ base1.addrRegs 2 ∧ 1 ∉ base1.addrRegs 4) := by decide
/-- The count register in the source pair; the byte operand's register; R1 in the translate forms. -/
theorem witness_BlockOverlapStops :
    disjoint3 (base1.addrRegs 2) (base1.addrRegs 4) [3] = false ∧ disjoint3 (base.addrRegs 1) [1] [3] = false ∧
    disjoint3 (base.addrRegs 1) [byteHome 9] [3] = false ∧ disjoint3 (base.addrRegs 2) (base.addrRegs 2) [3] = false ∧
    base.segmented = false ∧ (1 ∈ base1.addrRegs 0 ∧ 1 ∈ base.addrRegs 1) ∧
    (base.fcw.sn = true ∧ disjoint3 (base.addrRegs 4) [4] [3] = false ∧ disjoint3 (base1.addrRegs 4) [5] [3] = false) := by decide

theorem witness_SingleInputAndOutput :
    let s := { base with portAnswers := [0xBEEF] }
    s.fcw.sn = true ∧ s.portAnswers = 0xBEEF :: [] ∧ user.fcw.sn = false := by decide
theorem witness_BlockInputAndOutput :
    let s := { regs [(2, 0x40), (4, 0xFFFE), (3, 1)] base with portAnswers := [0xBEEF] }
    s.fcw.sn = true ∧ s.mem.wf = true ∧ disjoint3 (s.addrRegs 4) [2] [3] = true ∧ s.addrReg 4 = .ok (a0 0xFFFE) ∧ (a0 0xFFFE).isEven = true ∧
    s.portAnswers = 0xBEEF :: [] := by decide

theorem witness_FlagEnableAndLineInstructions : base.fcw.sn = true ∧ base1.fcw.sn = true := by decide
/-- Both parts; words and bytes with the reserved bits clear and set. -/
theorem witness_ControlRegistersReadAndWrite :
    base.fcw.sn = true ∧ base.cfg.variant = .amz8002 ∧ base1.fcw.sn = true ∧ base1.cfg.variant = .amz8001 ∧
    fcwReservedClear ((regs [(1, 0xF8FC)] base).reg 1) = true ∧ fcwReservedClear ((regs [(1, 0x0100)] base).reg 1) = false ∧
    flagsReservedClear ((regs [(1, 0xFC00)] base).rb 1) = true ∧ flagsReservedClear ((regs [(1, 0x0100)] base).rb 1) = false := by decide
theorem witness_LoadProgramStatus :
    let s := words [(0xFFFE, 0xF8FC), (0, 0x0100)] base
    let u := words1 [(0x3002, 0xC000), (0x3004, 0x7F00), (0x3006, 0xFFFE)] base1
    (s.fcw.sn = true ∧ s.segmented = false ∧ s.ea (.da (.plain 0xFFFE)) = .ok (a0 0xFFFE) ∧ (a0 0xFFFE).isEven = true ∧
      fcwReservedClear (s.wordAt (a0 0xFFFE)) = true ∧ (s.wordAt ⟨0, 0xFFFE + 2⟩).getLsbD 0 = false) ∧
    (u.fcw.sn = true ∧ u.segmented = true ∧ u.ea (.da (.long 1 0x3000)) = .ok ⟨1, 0x3000⟩ ∧
      fcwReservedClear (u.wordAt ⟨1, 0x3000 + 2⟩) = true ∧ (u.wordAt ⟨1, 0x3000 + 6⟩).getLsbD 0 = false) := by decide


end Sys2Proof.Tests
end

section
/-! SUPPORT. The register views (spec/10_state.md R22 to R30): the two halves of a word register, and what a pair and a quadruple read
back. -/

namespace Sys2Proof.Machine

/-! ### The halves of a word register -/

/-- RL is the low byte of its word register, RH the high one (R23). -/
theorem byteOf_withByte (c e : RegCode) (w : Word) (v : Byte) :
    byteOf e (withByte c w v) = if e.getLsbD 3 = c.getLsbD 3 then v else byteOf e w := by
  unfold byteOf withByte
  cases c.getLsbD 3 <;> cases e.getLsbD 3 <;> simp

/-- A byte register is given by its word register and its half (R22). -/
theorem byteHome_eq_and_half_iff (c e : RegCode) : byteHome e = byteHome c ∧ e.getLsbD 3 = c.getLsbD 3 ↔ e = c := by
  revert c e
  decide

theorem byteHome_eq (c : RegCode) : byteHome c = if c.getLsbD 3 then c - 8 else c := by
  revert c
  decide

theorem State.rb_setRb (s : State) (c e : RegCode) (v : Byte) : (s.setRb c v).rb e = if e = c then v else s.rb e := by
  unfold State.rb State.setRb
  rw [State.reg_setReg]
  by_cases hhome : byteHome e = byteHome c
  · rw [if_pos hhome, byteOf_withByte, hhome]
    simp only [← byteHome_eq_and_half_iff, hhome, true_and]
  · rw [if_neg hhome, if_neg fun he => hhome (congrArg byteHome he)]

/-! ### Pairs and quadruples -/

theorem State.reg_setRr (s : State) (n m : RegCode) (v : Long) :
    (s.setRr n v).reg m = if m = n + 1 then loWord v else if m = n then hiWord v else s.reg m := by
  simp only [State.setRr, State.reg_setReg]

theorem State.reg_setRr_even (s : State) (n : RegCode) (v : Long) : (s.setRr n v).reg n = hiWord v := by
  simp [State.reg_setRr]

theorem State.reg_setRr_odd (s : State) (n : RegCode) (v : Long) : (s.setRr n v).reg (n + 1) = loWord v := by
  simp [State.reg_setRr]

theorem State.rr_setRr (s : State) (n : RegCode) (v : Long) : (s.setRr n v).rr n = v := by
  rw [State.rr, State.reg_setRr_even, State.reg_setRr_odd, hiWord_loWord]

/-- The second pair of a quadruple is written after the first and leaves it alone. -/
theorem State.reg_setRq (s : State) (n : RegCode) (v : Quad) :
    (s.setRq n v).reg n = hiWord (hiLong v) ∧ (s.setRq n v).reg (n + 1) = loWord (hiLong v) ∧
      (s.setRq n v).reg (n + 2) = hiWord (loLong v) ∧ (s.setRq n v).reg (n + 3) = loWord (loLong v) := by
  have hodd : n + 3 = n + 2 + 1 := by bv_omega
  have h02 : n ≠ n + 2 := by bv_omega
  have h03 : n ≠ n + 2 + 1 := by bv_omega
  have h12 : n + 1 ≠ n + 2 := by bv_omega
  have h13 : n + 1 ≠ n + 2 + 1 := by bv_omega
  unfold State.setRq
  refine ⟨?_, ?_, State.reg_setRr_even .., hodd ▸ State.reg_setRr_odd ..⟩
  · rw [State.reg_setRr, if_neg h03, if_neg h02, State.reg_setRr_even]
  · rw [State.reg_setRr, if_neg h13, if_neg h12, State.reg_setRr_odd]

theorem State.rq_eq (s : State) (n : RegCode) : s.rq n = s.reg n ++ s.reg (n + 1) ++ (s.reg (n + 2) ++ s.reg (n + 3)) := by
  have hodd : n + 3 = n + 2 + 1 := by bv_omega
  rw [hodd]
  rfl

theorem State.rq_setRq (s : State) (n : RegCode) (v : Quad) : (s.setRq n v).rq n = v := by
  obtain ⟨h0, h1, h2, h3⟩ := s.reg_setRq n v
  rw [State.rq_eq, h0, h1, h2, h3, hiWord_loWord, hiWord_loWord, hiLong_loLong]

/-- A field of a field. -/
theorem extractLsb'_of_extractLsb' {k : Nat} (v : BitVec k) (a n b m : Nat) (h : b + m ≤ n) :
    (v.extractLsb' a n).extractLsb' b m = v.extractLsb' (a + b) m := by
  apply BitVec.eq_of_getLsbD_eq
  intro i hi
  have hn : b + i < n := by omega
  simp [hi, hn, Nat.add_assoc]

theorem words_of_quad (v : Quad) :
    hiWord (hiLong v) = v.extractLsb' 48 16 ∧ loWord (hiLong v) = v.extractLsb' 32 16 ∧
      hiWord (loLong v) = v.extractLsb' 16 16 ∧ loWord (loLong v) = v.extractLsb' 0 16 :=
  ⟨extractLsb'_of_extractLsb' v 32 32 16 16 (by decide), extractLsb'_of_extractLsb' v 32 32 0 16 (by decide),
    extractLsb'_of_extractLsb' v 0 32 16 16 (by decide), extractLsb'_of_extractLsb' v 0 32 0 16 (by decide)⟩

/-! ### O22, O21 -/

/-- Settles O22: each view is read after its write. -/
theorem registerViews : Obligations.RegisterViews := by
  refine ⟨State.rb_setRb, fun s c => ?_, byteHome_eq, fun s n v => ?_, fun s n v => ?_⟩
  · unfold State.rb byteOf
    rw [byteHome_eq]
    cases c.getLsbD 3 <;> rfl
  · exact ⟨s.rr_setRr n v, s.reg_setRr_even n v, s.reg_setRr_odd n v⟩
  · obtain ⟨h0, h1, h2, h3⟩ := s.reg_setRq n v
    obtain ⟨e0, e1, e2, e3⟩ := words_of_quad v
    exact ⟨s.rq_setRq n v, h0.trans e0, h1.trans e1, h2.trans e2, h3.trans e3⟩

/-- R14 in each mode and part (R30). -/
theorem State.reg_fourteen (s : State) : s.reg 14 = if s.fcw.sn = true ∧ s.cfg.variant = .amz8001 then s.rs14 else s.rn14 := by
  unfold State.reg State.phys
  by_cases h : s.fcw.sn = true ∧ s.cfg.variant = .amz8001 <;> simp [h] <;> rfl

/-- R15 in each mode (R30). -/
theorem State.reg_fifteen (s : State) : s.reg 15 = if s.fcw.sn = true then s.rs15 else s.rn15 := by
  unfold State.reg State.phys
  by_cases h : s.fcw.sn = true <;> simp [h] <;> rfl

/-- R0 to R13 have one physical register each (R30). -/
theorem State.phys_below_fourteen (s : State) (n : Fin 14) : (s.phys (BitVec.ofNat 4 n) : Nat) = n := by
  have h14 : BitVec.ofNat 4 n ≠ 14 := by bv_omega
  have h15 : BitVec.ofNat 4 n ≠ 15 := by bv_omega
  simp only [State.phys, h14, h15, false_and, if_false, BitVec.toNat_ofNat]
  omega

/-- Settles O21: the bank of R14 and R15 is chosen by the mode and the part. -/
theorem registerBanks : Obligations.RegisterBanks := by
  intro s
  refine ⟨s.reg_fourteen, s.reg_fifteen, fun n => ?_, rfl, ?_⟩
  · unfold State.reg
    simp only [Fin.getElem_fin, s.phys_below_fourteen n]
  · rw [State.rq_eq, BitVec.append_assoc']
    rfl

end Sys2Proof.Machine
end

section
/-! SUPPORT. What a step runs (spec/60_exceptions.md R512; spec/20_memory.md R103). -/

namespace Sys2Proof.Machine

theorem State.isEven_pc_iff (s : State) : s.pc.isEven = true ↔ s.pcOff.getLsbD 0 = false := by
  rw [Address.isEven, Bool.not_eq_true']
  rfl

/-- Without an accepted request a step is that of `stepInstr`, the requests of the boundary taken. -/
theorem step_of_no_request {s : State} (h : acceptedRequest s.presented s.fcw = none) :
    step s = stepInstr { s with requests := s.requests.tail } := by
  unfold step
  rw [h]

/-- The fetch of an instruction of which no byte was just stored. -/
theorem State.fetch_of_decode {s : State} {i : Instr} {rest : List Word} (heven : s.pcOff.getLsbD 0 = false)
    (hdec : decode s.segmented s.fetchWords = .ok (i, rest)) (hmod : s.modified (lengthOf i) = false) :
    s.fetch = .ok (.instr i (s.advanced (lengthOf i))) := by
  simp only [State.fetch, heven, hdec, hmod, Bool.false_eq_true, if_false]

/-- A running machine that fetches an instruction executes it. -/
theorem stepInstr_of_fetch {s u : State} {i : Instr} (hhalted : s.halted = false) (hfetch : s.fetch = .ok (.instr i u)) :
    stepInstr s = exec i u := by
  unfold stepInstr
  rw [hhalted, hfetch]
  rfl

/-- Settles O5: the fetch gives the decoded instruction, since the requests taken are not looked at by it. -/
theorem stepRunsDecodedInstruction : Obligations.StepRunsDecodedInstruction := by
  intro s i rest hhalted hnone heven hdec hstores
  let u : State := { s with requests := s.requests.tail }
  have hfetch : u.fetch = .ok (.instr i (u.advanced (lengthOf i))) :=
    State.fetch_of_decode (s.isEven_pc_iff.1 heven) hdec (modified_eq_false.2 hstores)
  exact (step_of_no_request hnone).trans (stepInstr_of_fetch hhalted hfetch)

end Sys2Proof.Machine
end

section
/-! SUPPORT. `Effect s t halves bits parts`: what an operation that takes s to t may have changed, fine enough for the frames of every
instruction (halves of registers, fields of the FCW, the rest of the state part by part), together with what no operation breaks (the
invariant of the machine, R35 to R42, R60, R80). Effects compose, so the effect of an instruction is put together from those of the shared
operations it calls. -/

namespace Sys2Proof.Machine

/-! ### Fields of the FCW -/

/-- Only the fields in `bits` differ. -/
def FcwKept (bits : List FcwBit) (f g : Fcw) : Prop := ∀ b, b ∉ bits → g.bit b = f.bit b

/-- `FcwKept` field by field. -/
theorem fcwKept_iff {bits : List FcwBit} {f g : Fcw} : FcwKept bits f g ↔
    (.seg ∉ bits → g.seg = f.seg) ∧ (.sn ∉ bits → g.sn = f.sn) ∧ (.se ∉ bits → g.se = f.se) ∧ (.vie ∉ bits → g.vie = f.vie) ∧
      (.nvie ∉ bits → g.nvie = f.nvie) ∧ (.c ∉ bits → g.c = f.c) ∧ (.z ∉ bits → g.z = f.z) ∧ (.s ∉ bits → g.s = f.s) ∧
      (.pv ∉ bits → g.pv = f.pv) ∧ (.da ∉ bits → g.da = f.da) ∧ (.h ∉ bits → g.h = f.h) := by
  constructor
  · intro k
    exact ⟨k .seg, k .sn, k .se, k .vie, k .nvie, k .c, k .z, k .s, k .pv, k .da, k .h⟩
  · rintro ⟨hseg, hsn, hse, hvie, hnvie, hc, hz, hs, hpv, hda, hh⟩ b
    cases b <;> assumption

theorem FcwKept.eq {f g : Fcw} (k : FcwKept [] f g) : g = f := by
  obtain ⟨_, _, _, _, _, _, _, _, _, _, _⟩ := f
  obtain ⟨_, _, _, _, _, _, _, _, _, _, _⟩ := g
  simpa [fcwKept_iff] using k

/-- Only the fields in `bits` differ, and SEG does not: what the flag computations do. -/
def FlagUpdate (bits : List FcwBit) (f g : Fcw) : Prop := FcwKept bits f g ∧ g.seg = f.seg

theorem Fcw.arith_update {n : Nat} (f : Fcw) (o : AluOut n) : FlagUpdate [.c, .z, .s, .pv] f (f.arith o) :=
  ⟨by simp [fcwKept_iff, Fcw.arith], rfl⟩

theorem Fcw.arithAddByte_update (f : Fcw) (o : AluOut 8) : FlagUpdate [.c, .z, .s, .pv, .da, .h] f (f.arithAddByte o) :=
  ⟨by simp [fcwKept_iff, Fcw.arithAddByte, Fcw.arith], rfl⟩

theorem Fcw.arithSubByte_update (f : Fcw) (o : AluOut 8) : FlagUpdate [.c, .z, .s, .pv, .da, .h] f (f.arithSubByte o) :=
  ⟨by simp [fcwKept_iff, Fcw.arithSubByte, Fcw.arith], rfl⟩

theorem Fcw.step_update {n : Nat} (f : Fcw) (o : AluOut n) : FlagUpdate [.z, .s, .pv] f (f.step o) :=
  ⟨by simp [fcwKept_iff, Fcw.step], rfl⟩

theorem Fcw.exact_update (f : Fcw) (c : Bool) (p : Int) : FlagUpdate [.c, .z, .s, .pv] f (f.exact c p) :=
  ⟨by simp [fcwKept_iff, Fcw.exact], rfl⟩

/-- P/V of a logical result is the parity for bytes only (R280). -/
theorem Fcw.logic_update_byte (f : Fcw) (r : BitVec 8) : FlagUpdate [.z, .s, .pv] f (f.logic r) :=
  ⟨by simp [fcwKept_iff, Fcw.logic], rfl⟩

theorem Fcw.logic_update_word (f : Fcw) (r : BitVec 16) : FlagUpdate [.z, .s] f (f.logic r) :=
  ⟨by simp [fcwKept_iff, Fcw.logic], rfl⟩

theorem Fcw.logic_update_long (f : Fcw) (r : BitVec 32) : FlagUpdate [.z, .s] f (f.logic r) :=
  ⟨by simp [fcwKept_iff, Fcw.logic], rfl⟩

theorem Fcw.withFlags_update (f : Fcw) (b : Byte) : FlagUpdate [.c, .z, .s, .pv, .da, .h] f (f.withFlags b) :=
  ⟨by simp [fcwKept_iff, Fcw.withFlags], rfl⟩

theorem Fcw.czsv_update (f : Fcw) (c z s v : Bool) : FlagUpdate [.c, .z, .s, .pv] f { f with c := c, z := z, s := s, pv := v } :=
  ⟨by simp [fcwKept_iff], rfl⟩

theorem Fcw.zs_update (f : Fcw) (z s : Bool) : FlagUpdate [.z, .s] f { f with z := z, s := s } := ⟨by simp [fcwKept_iff], rfl⟩

theorem Fcw.zv_update (f : Fcw) (z v : Bool) : FlagUpdate [.z, .pv] f { f with z := z, pv := v } := ⟨by simp [fcwKept_iff], rfl⟩

theorem Fcw.z_update (f : Fcw) (z : Bool) : FlagUpdate [.z] f { f with z := z } := ⟨by simp [fcwKept_iff], rfl⟩

theorem Fcw.s_update (f : Fcw) (s : Bool) : FlagUpdate [.s] f { f with s := s } := ⟨by simp [fcwKept_iff], rfl⟩

/-- The flags that the field of COMFLG, RESFLG and SETFLG selects (R442 to R444). -/
theorem Fcw.selected_update (f : BitVec 4) (g : Bool → Bool) (w : Fcw) :
    FlagUpdate ((if f.getLsbD 3 then [.c] else []) ++ (if f.getLsbD 2 then [.z] else []) ++ (if f.getLsbD 1 then [.s] else []) ++
      (if f.getLsbD 0 then [.pv] else [])) w (w.selected f g) :=
  ⟨by simp +contextual [fcwKept_iff, Fcw.selected], rfl⟩

/-- The enables that DI and EI name (R445, R446). -/
theorem Fcw.enables_update (vi nvi b : Bool) (w : Fcw) :
    FlagUpdate ((if vi then [.vie] else []) ++ (if nvi then [.nvie] else [])) w (w.enables vi nvi b) :=
  ⟨by simp +contextual [fcwKept_iff, Fcw.enables], rfl⟩

/-! ### Halves of registers -/

/-- Both halves of each of the registers. -/
def bothHalves (js : List (Fin 18)) : List (Fin 18 × Bool) := js.flatMap fun j => [(j, false), (j, true)]

@[simp] theorem mem_bothHalves {js : List (Fin 18)} {j : Fin 18} {low : Bool} : (j, low) ∈ bothHalves js ↔ j ∈ js := by
  cases low <;> simp [bothHalves]

/-- Two registers with the same halves are the same. -/
theorem State.gr_eq_of_halves {s t : State} {j : Fin 18} (h : ∀ low, t.halfReg j low = s.halfReg j low) : t.gr[j] = s.gr[j] := by
  have hlo : loByte t.gr[j] = loByte s.gr[j] := h true
  have hhi : hiByte t.gr[j] = hiByte s.gr[j] := h false
  rw [← hiByte_loByte t.gr[j], ← hiByte_loByte s.gr[j], hlo, hhi]

theorem State.halfReg_congr {s t : State} {j : Fin 18} (h : t.gr[j] = s.gr[j]) (low : Bool) : t.halfReg j low = s.halfReg j low := by
  unfold State.halfReg
  rw [h]

/-! ### Effect -/

/-- The parts of the state beside the registers, the FCW, the memory and what no instruction changes. -/
inductive Part where
  | pcSeg
  | pcOff
  | psapSeg
  | psapOff
  | refresh
  | halted
  | events
  | portAnswers
  | line
  | repeating

/-- Of the halves of registers, the FCW fields and the parts only those listed may differ; events are only added; the parameters and the
coming requests do not change; each clause of the invariant is kept. -/
structure Effect (s t : State) (halves : List (Fin 18 × Bool)) (bits : List FcwBit) (parts : List Part) : Prop where
  cfg : t.cfg = s.cfg
  requests : t.requests = s.requests
  half : ∀ j low, (j, low) ∉ halves → t.halfReg j low = s.halfReg j low
  fcw : FcwKept bits s.fcw t.fcw
  pcSeg : .pcSeg ∉ parts → t.pcSeg = s.pcSeg
  pcOff : .pcOff ∉ parts → t.pcOff = s.pcOff
  psapSeg : .psapSeg ∉ parts → t.psapSeg = s.psapSeg
  psapOff : .psapOff ∉ parts → t.psapOff = s.psapOff
  refresh : .refresh ∉ parts → t.refresh = s.refresh
  halted : .halted ∉ parts → t.halted = s.halted
  events : .events ∉ parts → t.events = s.events
  portAnswers : .portAnswers ∉ parts → t.portAnswers = s.portAnswers
  line : .line ∉ parts → t.multiMicroOut = s.multiMicroOut
  repeating : .repeating ∉ parts → t.repeating = s.repeating
  eventsAdded : ∃ es, t.events = s.events ++ es
  pcEven : s.pcEven = true → t.pcEven = true
  fitsVariant : s.fitsVariant = true → t.fitsVariant = true
  memOk : s.memOk = true → t.memOk = true

section
variable {s t u : State} {halves halves' : List (Fin 18 × Bool)} {bits bits' : List FcwBit} {parts parts' : List Part}

theorem Effect.inv (e : Effect s t halves bits parts) (h : s.inv = true) : t.inv = true := by
  simp only [State.inv, Bool.and_eq_true] at h ⊢
  obtain ⟨⟨hpc, hfits⟩, hmem⟩ := h
  exact ⟨⟨e.pcEven hpc, e.fitsVariant hfits⟩, e.memOk hmem⟩

theorem State.pcEven_iff (s : State) : s.pcEven = true ↔ s.pcOff.getLsbD 0 = false := by
  rw [State.pcEven, Bool.not_eq_true']

/-- What each of two operations keeps outside its list, both keep outside the two lists. -/
theorem kept_trans {α β : Type} {p : α} {l l' : List α} {x y z : β} (a : p ∉ l → y = x) (b : p ∉ l' → z = y) (h : p ∉ l ++ l') : z = x :=
  (b fun h' => h (List.mem_append_right l h')).trans (a fun h' => h (List.mem_append_left l' h'))

theorem Effect.trans (a : Effect s t halves bits parts) (b : Effect t u halves' bits' parts') :
    Effect s u (halves ++ halves') (bits ++ bits') (parts ++ parts') where
  cfg := b.cfg.trans a.cfg
  requests := b.requests.trans a.requests
  half j low := kept_trans (a.half j low) (b.half j low)
  fcw i := kept_trans (a.fcw i) (b.fcw i)
  pcSeg := kept_trans a.pcSeg b.pcSeg
  pcOff := kept_trans a.pcOff b.pcOff
  psapSeg := kept_trans a.psapSeg b.psapSeg
  psapOff := kept_trans a.psapOff b.psapOff
  refresh := kept_trans a.refresh b.refresh
  halted := kept_trans a.halted b.halted
  events := kept_trans a.events b.events
  portAnswers := kept_trans a.portAnswers b.portAnswers
  line := kept_trans a.line b.line
  repeating := kept_trans a.repeating b.repeating
  eventsAdded := by
    obtain ⟨es, hes⟩ := a.eventsAdded
    obtain ⟨es', hes'⟩ := b.eventsAdded
    exact ⟨es ++ es', by rw [hes', hes, List.append_assoc]⟩
  pcEven h := b.pcEven (a.pcEven h)
  fitsVariant h := b.fitsVariant (a.fitsVariant h)
  memOk h := b.memOk (a.memOk h)

theorem Effect.mono (e : Effect s t halves bits parts) (hh : halves ⊆ halves' := by simp) (hb : bits ⊆ bits' := by simp)
    (hp : parts ⊆ parts' := by simp) :
    Effect s t halves' bits' parts' :=
  { e with
    half := fun j low h => e.half j low fun h' => h (hh h')
    fcw := fun b h => e.fcw b fun h' => h (hb h')
    pcSeg := fun h => e.pcSeg fun h' => h (hp h')
    pcOff := fun h => e.pcOff fun h' => h (hp h')
    psapSeg := fun h => e.psapSeg fun h' => h (hp h')
    psapOff := fun h => e.psapOff fun h' => h (hp h')
    refresh := fun h => e.refresh fun h' => h (hp h')
    halted := fun h => e.halted fun h' => h (hp h')
    events := fun h => e.events fun h' => h (hp h')
    portAnswers := fun h => e.portAnswers fun h' => h (hp h')
    line := fun h => e.line fun h' => h (hp h')
    repeating := fun h => e.repeating fun h' => h (hp h') }

/-- The register codes name the same registers as before when SN is the same. -/
theorem Effect.phys (e : Effect s t halves bits parts) (hsn : .sn ∉ bits := by simp) : t.phys = s.phys :=
  funext fun n => State.phys_congr e.cfg (e.fcw .sn hsn) n

theorem Effect.segmented (e : Effect s t halves bits parts) (hseg : .seg ∉ bits) : t.segmented = s.segmented := by
  have h : t.fcw.seg = s.fcw.seg := e.fcw .seg hseg
  rw [State.segmented, State.segmented, e.cfg, h]

theorem Effect.offReg (e : Effect s t halves bits parts) (hseg : .seg ∉ bits) : t.offReg = s.offReg :=
  funext fun n => by rw [State.offReg, State.offReg, e.segmented hseg]

/-! ### The effects of the updates of the state -/

/-- What `Change` allows, as an effect. -/
theorem Change.effect {regs : List (Fin 18)} {keys : List Nat} (c : Change s t regs keys) : Effect s t (bothHalves regs) [] [] where
  cfg := c.cfg
  requests := c.requests
  half j low h := State.halfReg_congr (c.gr j (by simpa using h)) low
  fcw b _ := congrArg (Fcw.bit · b) c.fcw
  pcSeg _ := c.pcSeg
  pcOff _ := c.pcOff
  psapSeg _ := c.psapSeg
  psapOff _ := c.psapOff
  refresh _ := c.refresh
  halted _ := c.halted
  events _ := c.events
  portAnswers _ := c.portAnswers
  line _ := c.multiMicroOut
  repeating _ := c.repeating
  eventsAdded := ⟨[], by rw [c.events, List.append_nil]⟩
  pcEven h := by
    rw [State.pcEven_iff, c.pcOff]
    exact s.pcEven_iff.1 h
  fitsVariant h := by simpa [State.fitsVariant, c.cfg, c.fcw, c.pcSeg, c.psapSeg] using h
  memOk := c.memOk

theorem Effect.refl (s : State) : Effect s s [] [] [] := (Change.refl s).effect

/-- A byte register is one half of its word register (R23). -/
theorem Effect.setRb (s : State) (c : RegCode) (v : Byte) : Effect s (s.setRb c v) [(s.phys (byteHome c), c.getLsbD 3)] [] [] :=
  { (Change.setRb s c v).effect with
    half := by
      intro j low h
      by_cases hj : j = s.phys (byteHome c)
      · subst hj
        have hlow : low ≠ c.getLsbD 3 := by simpa using h
        have hreg : (s.setRb c v).gr[s.phys (byteHome c)] = withByte c s.gr[s.phys (byteHome c)] v :=
          State.reg_setReg_same s (byteHome c) _
        unfold State.halfReg
        rw [hreg]
        unfold withByte
        cases hc : c.getLsbD 3 <;> cases low <;> simp_all
      · exact State.halfReg_congr (State.setReg_gr_ne s _ _ j hj) low }

/-- An update of the flags after an operation that leaves the FCW alone. -/
theorem Effect.setFlags (e : Effect s t halves [] parts) {f : Fcw} (k : FlagUpdate bits s.fcw f) : Effect s (t.setFcw f) halves bits parts :=
  { e with
    fcw := k.1
    fitsVariant := fun h => by
      have hs := e.fitsVariant h
      have hf : t.fcw = s.fcw := e.fcw.eq
      simpa [State.fitsVariant, k.2, hf] using hs }

/-- Loading the FCW may change every field of it, but never SEG of the AMZ8002 (R440). -/
theorem Effect.loadFcw (s : State) (w : Word) : Effect s (s.setFcw (s.fcw.ofWord s.cfg.variant w)) [] allBits [] :=
  { Effect.refl s with
    fcw := fun b h => absurd (by cases b <;> simp [allBits]) h
    fitsVariant := fun h => by
      simp only [State.fitsVariant] at h ⊢
      cases hv : s.cfg.variant <;> simp_all [Fcw.ofWord, Fcw.withFlags] }

/-- A jump inside the segment to an even offset. -/
theorem Effect.movePc (s : State) {x : Word} (hx : s.pcEven = true → x.getLsbD 0 = false) : Effect s (s.movePc x) [] [] [.pcOff] :=
  { (Effect.refl s).mono (parts' := [.pcOff]) with
    pcOff := fun h => absurd (by simp) h
    pcEven := fun h => (State.pcEven_iff _).2 (hx h) }

/-- A jump to an even offset; the AMZ8002 has no segment to change (R35). -/
theorem Effect.jump (s : State) {g : SegNum} {x : Word} (hx : x.getLsbD 0 = false) (hg : s.cfg.variant = .amz8001 ∨ g = s.pcSeg) :
    Effect s { s with pcSeg := g, pcOff := x } [] [] [.pcSeg, .pcOff] :=
  { (Effect.refl s).mono (parts' := [.pcSeg, .pcOff]) with
    pcSeg := fun h => absurd (by simp) h
    pcOff := fun h => absurd (by simp) h
    pcEven := fun _ => (State.pcEven_iff _).2 hx
    fitsVariant := fun h => by
      rcases hg with hv | rfl
      · simp [State.fitsVariant, hv]
      · exact h }

theorem Effect.emit (s : State) (e : OutEvent) : Effect s (s.emit e) [] [] [.events] :=
  { (Effect.refl s).mono (parts' := [.events]) with
    events := fun h => absurd (by simp) h
    eventsAdded := ⟨[e], rfl⟩ }

theorem Effect.portTaken (s : State) : Effect s s.portTaken [] [] [.portAnswers] := by
  unfold State.portTaken
  split
  · exact { (Effect.refl s).mono (parts' := [.portAnswers]) with
      portAnswers := fun h => absurd (by simp) h }
  · exact (Change.drawn s).effect.mono (by simp [bothHalves])

theorem Effect.portRead (s : State) (e : OutEvent) : Effect s (s.portRead e) [] [] [.events, .portAnswers] :=
  ((Effect.portTaken s).trans (Effect.emit _ e)).mono

theorem Effect.setMultiMicro (s : State) (active : Bool) : Effect s (s.setMultiMicro active) [] [] [.events, .line] :=
  { (Effect.emit s (.multiMicro active)).mono (parts' := [.events, .line]) with
    line := fun h => absurd (by simp) h }

/-- The end of an iteration goes back by two words, to an even PC. -/
theorem Effect.again (s : State) (done : Bool) : Effect s (again done s) [] [] [.pcOff, .repeating] := by
  cases done
  · have hpc : s.pcEven = true → (s.pcOff - 4).getLsbD 0 = false := fun h => by
      rw [BitVec.sub_eq_add_neg, getLsbD_add_even _ _ (by decide)]
      exact s.pcEven_iff.1 h
    exact { (Effect.movePc s hpc).mono (parts' := [.pcOff, .repeating]) with
      repeating := fun h => absurd (by simp) h }
  · exact (Effect.refl s).mono

end

end Sys2Proof.Machine
end

section
/-! SUPPORT. The effects of the operations that the instructions share, one lemma each, in the order of the model's files. -/

namespace Sys2Proof.Machine

section
variable {n : Nat} {w : Width n} {home : (RegCode → Fin 18) → RegCode → List (Fin 18 × Bool)} {bits : List FcwBit} {s t : State}

/-! ### Operand widths -/

/-- The halves of word registers that a word register code stands for. -/
def wordHalves (ph : RegCode → Fin 18) (r : RegCode) : List (Fin 18 × Bool) := bothHalves ((wordHome r).map ph)
/-- The half that a byte register code stands for (R22, R23). -/
def byteHalves (ph : RegCode → Fin 18) (c : RegCode) : List (Fin 18 × Bool) := [(ph (byteHome c), c.getLsbD 3)]
/-- The halves of a pair (R24). -/
def pairHalves (ph : RegCode → Fin 18) (r : RegCode) : List (Fin 18 × Bool) := bothHalves ((pairHome r).map ph)

/-- The halves that an operand in R, IR, DA or X mode stands for. -/
def regMemHalves (home : (RegCode → Fin 18) → RegCode → List (Fin 18 × Bool)) (ph : RegCode → Fin 18) : RegMem → List (Fin 18 × Bool)
  | .reg r => home ph r
  | .mem _ => []

/-- What writing through a width does: `home` are the halves that a register code of the width stands for. -/
structure WidthEffect (w : Width n) (home : (RegCode → Fin 18) → RegCode → List (Fin 18 × Bool)) : Prop where
  set_ok : ∀ {s r v t}, w.set s r v = .ok t → Effect s t (home s.phys r) [] []
  store_ok : ∀ {s a v t}, w.store s a v = .ok t → Effect s t [] [] []

theorem byteEffect : WidthEffect byteWidth byteHalves where
  set_ok h := by cases h; exact Effect.setRb _ _ _
  store_ok h := (byteSpec.store_ok h).effect

theorem wordEffect : WidthEffect wordWidth wordHalves where
  set_ok h := (wordSpec.set_ok h).effect
  store_ok h := (wordSpec.store_ok h).effect

theorem longEffect : WidthEffect longWidth pairHalves where
  set_ok h := (longSpec.set_ok h).effect
  store_ok h := (longSpec.store_ok h).effect

theorem writeRegMem_effect (W : WidthEffect w home) {dst : RegMem} {v : BitVec n} (h : writeRegMem w s dst v = .ok t) :
    Effect s t (regMemHalves home s.phys dst) [] [] := by
  cases dst with
  | reg r => exact W.set_ok h
  | mem m =>
    obtain ⟨a, _, hstore⟩ := bind_ok.1 h
    exact W.store_ok hstore

theorem modifyRegMem_effect (W : WidthEffect w home) {dst : RegMem} {f : BitVec n → BitVec n} (h : modifyRegMem w s dst f = .ok t) :
    Effect s t (regMemHalves home s.phys dst) [] [] := by
  obtain ⟨v, _, hwrite⟩ := bind_ok.1 h
  exact writeRegMem_effect W hwrite

/-! ### Arithmetic -/

theorem aluReg_effect (W : WidthEffect w home) {op : BitVec n → BitVec n → AluOut n} {flags : Fcw → AluOut n → Fcw}
    (hf : ∀ f o, FlagUpdate bits f (flags f o)) {d : RegCode} {src : Src n} (h : aluReg w op flags d src s = .ok t) :
    Effect s t (home s.phys d) bits [] := by
  simp only [aluReg, bind_ok, Except.ok.injEq] at h
  obtain ⟨_, _, _, _, u, hset, rfl⟩ := h
  exact (W.set_ok hset).setFlags (hf _ _)

theorem compare_effect (a b : BitVec n) (s : State) : Effect s (compare a b s) [] [.c, .z, .s, .pv] [] :=
  (Effect.refl s).setFlags (Fcw.arith_update _ _)

theorem compareReg_effect {d : RegCode} {src : Src n} (h : compareReg w d src s = .ok t) : Effect s t [] [.c, .z, .s, .pv] [] := by
  simp only [compareReg, bind_ok, Except.ok.injEq] at h
  obtain ⟨a, _, b, _, rfl⟩ := h
  exact compare_effect a b s

theorem compareMem_effect {dst : MemOp} {v : BitVec n} (h : compareMem w dst v s = .ok t) : Effect s t [] [.c, .z, .s, .pv] [] := by
  simp only [compareMem, bind_ok, Except.ok.injEq] at h
  obtain ⟨_, _, a, _, rfl⟩ := h
  exact compare_effect a v s

theorem aluRegMem_effect (W : WidthEffect w home) {op : BitVec n → AluOut n} {flags : Fcw → AluOut n → Fcw}
    (hf : ∀ f o, FlagUpdate bits f (flags f o)) {dst : RegMem} (h : aluRegMem w op flags dst s = .ok t) :
    Effect s t (regMemHalves home s.phys dst) bits [] := by
  simp only [aluRegMem, bind_ok, Except.ok.injEq] at h
  obtain ⟨_, _, u, hwrite, rfl⟩ := h
  exact (writeRegMem_effect W hwrite).setFlags (hf _ _)

theorem Effect.drawn (s : State) : Effect s s.drawn [] [] [] := (Change.drawn s).effect

theorem Effect.drawn5 (s : State) : Effect s s.drawn.drawn.drawn.drawn.drawn [] [] [] :=
  ((((Effect.drawn s).trans (Effect.drawn _)).trans (Effect.drawn _)).trans (Effect.drawn _)).trans (Effect.drawn _)

theorem execDab_effect {d : RegCode} (h : execDab d s = .next t) : Effect s t (byteHalves s.phys d) [.c, .z, .s, .pv] [] := by
  simp only [execDab] at h
  split at h
  · cases h
    exact ((Effect.drawn s).trans (Effect.setRb _ d _)).setFlags (Fcw.czsv_update _ _ _ _ _)
  · cases h
    have set := Effect.setRb s.drawn.drawn.drawn.drawn.drawn d s.freeByte
    rw [(Effect.drawn5 s).phys List.not_mem_nil] at set
    exact ((Effect.drawn5 s).trans set).setFlags (Fcw.czsv_update _ _ _ _ _)

theorem putQuad_effect {d : RegCode} {v : Quad} (h : s.putQuad d v = .ok t) : Effect s t (bothHalves ((quadHome d).map s.phys)) [] [] :=
  (putQuad_ok h).effect

theorem execDiv_effect {d : RegCode} {src : Src 16} (h : execDiv d src s = .next t) :
    Effect s t (pairHalves s.phys d) [.c, .z, .s, .pv] [] := by
  simp only [execDiv, finish_next, bind_ok, Except.ok.injEq] at h
  obtain ⟨_, _, _, _, _, _, u, hset, rfl⟩ := h
  exact (longEffect.set_ok hset).setFlags (Fcw.exact_update _ _ _)

theorem execDivl_effect {d : RegCode} {src : Src 32} (h : execDivl d src s = .next t) :
    Effect s t (bothHalves ((quadHome d).map s.phys)) [.c, .z, .s, .pv] [] := by
  simp only [execDivl, finish_next, bind_ok, Except.ok.injEq] at h
  obtain ⟨_, _, _, _, _, _, u, hset, rfl⟩ := h
  exact (putQuad_effect hset).setFlags (Fcw.exact_update _ _ _)

theorem execMult_effect {d : RegCode} {src : Src 16} (h : execMult d src s = .next t) :
    Effect s t (pairHalves s.phys d) [.c, .z, .s, .pv] [] := by
  simp only [execMult, finish_next, bind_ok, Except.ok.injEq] at h
  obtain ⟨_, _, _, _, u, hset, rfl⟩ := h
  exact (longEffect.set_ok hset).setFlags (Fcw.exact_update _ _ _)

theorem execMultl_effect {d : RegCode} {src : Src 32} (h : execMultl d src s = .next t) :
    Effect s t (bothHalves ((quadHome d).map s.phys)) [.c, .z, .s, .pv] [] := by
  simp only [execMultl, finish_next, bind_ok, Except.ok.injEq] at h
  obtain ⟨_, _, _, _, u, hset, rfl⟩ := h
  exact (putQuad_effect hset).setFlags (Fcw.exact_update _ _ _)

theorem execExts_effect {d : RegCode} (h : execExts d s = .next t) : Effect s t (pairHalves s.phys d) [] [] := by
  obtain ⟨_, _, hset⟩ := bind_ok.1 (finish_next.1 h)
  exact longEffect.set_ok hset

theorem execExtsl_effect {d : RegCode} (h : execExtsl d s = .next t) : Effect s t (bothHalves ((quadHome d).map s.phys)) [] [] := by
  obtain ⟨_, _, hset⟩ := bind_ok.1 (finish_next.1 h)
  exact putQuad_effect hset

/-! ### Bits -/

theorem testBit_effect {dst : RegMem} {b : Nat} (h : testBit w dst b s = .ok t) : Effect s t [] [.z] [] := by
  simp only [testBit, bind_ok, Except.ok.injEq] at h
  obtain ⟨_, _, rfl⟩ := h
  exact (Effect.refl s).setFlags (Fcw.z_update _ _)

theorem testAndSet_effect (W : WidthEffect w home) {dst : RegMem} (h : testAndSet w dst s = .ok t) :
    Effect s t (regMemHalves home s.phys dst) [.s] [] := by
  simp only [testAndSet, bind_ok, Except.ok.injEq] at h
  obtain ⟨_, _, u, hwrite, rfl⟩ := h
  exact (writeRegMem_effect W hwrite).setFlags (Fcw.s_update _ _)

/-! ### Loads and exchanges -/

theorem exchange_effect (W : WidthEffect w home) {d : RegCode} {src : RegMem} (h : exchange w d src s = .ok t) :
    Effect s t (home s.phys d ++ regMemHalves home s.phys src) [] [] := by
  cases src with
  | reg r =>
    simp only [exchange, bind_ok] at h
    obtain ⟨_, _, _, _, u, hr, hd⟩ := h
    have first := W.set_ok hr
    have second := W.set_ok hd
    rw [first.phys] at second
    exact (first.trans second).mono (by simp [regMemHalves])
  | mem m =>
    simp only [exchange, bind_ok] at h
    obtain ⟨_, _, _, _, _, _, u, hstore, hd⟩ := h
    have first := W.store_ok hstore
    have second := W.set_ok hd
    rw [first.phys] at second
    exact (first.trans second).mono

theorem loadReg_effect (W : WidthEffect w home) {d : RegCode} {src : LdSrc n} (h : loadReg w d src s = .ok t) :
    Effect s t (home s.phys d) [] [] := by
  obtain ⟨_, _, hset⟩ := bind_ok.1 h
  exact W.set_ok hset

theorem storeReg_effect (W : WidthEffect w home) {dst : LdMem} {r : RegCode} (h : storeReg w dst r s = .ok t) : Effect s t [] [] [] := by
  simp only [storeReg, bind_ok] at h
  obtain ⟨_, _, _, _, hstore⟩ := h
  exact W.store_ok hstore

theorem storeImm_effect (W : WidthEffect w home) {dst : MemOp} {v : BitVec n} (h : storeImm w dst v s = .ok t) : Effect s t [] [] [] := by
  obtain ⟨_, _, hstore⟩ := bind_ok.1 h
  exact W.store_ok hstore

theorem loadRel_effect (W : WidthEffect w home) {d : RegCode} {disp : Word} (h : loadRel w d disp s = .ok t) :
    Effect s t (home s.phys d) [] [] := by
  obtain ⟨_, _, hset⟩ := bind_ok.1 h
  exact W.set_ok hset

theorem storeRel_effect (W : WidthEffect w home) {disp : Word} {r : RegCode} (h : storeRel w disp r s = .ok t) : Effect s t [] [] [] := by
  obtain ⟨_, _, hstore⟩ := bind_ok.1 h
  exact W.store_ok hstore

theorem Effect.setReg (s : State) (r : RegCode) (v : Word) : Effect s (s.setReg r v) (wordHalves s.phys r) [] [] :=
  (Change.setReg s r v).effect

/-- An address register receives a segment word and an offset, or an offset alone (R209). -/
theorem putAddr_effect {d : RegCode} {a : Address} (h : putAddr d a s = .ok t) :
    Effect s t (bothHalves ((if s.segmented then pairHome d else wordHome d).map s.phys)) [] [] := by
  unfold putAddr at h
  split at h
  · next hseg =>
    obtain ⟨_, _, hput⟩ := bind_ok.1 h
    cases hput
    rw [if_pos hseg]
    exact ((Effect.drawn s).trans ((Effect.drawn _).trans ((Effect.setReg _ d _).trans (Effect.setReg _ (d + 1) _))))
  · next hseg =>
    cases h
    rw [if_neg hseg]
    exact Effect.setReg s d a.off

theorem execLda_effect {d : RegCode} {src : LdaSrc} (h : execLda d src s = .next t) :
    Effect s t (bothHalves ((if s.segmented then pairHome d else wordHome d).map s.phys)) [] [] := by
  obtain ⟨_, _, hput⟩ := bind_ok.1 (finish_next.1 h)
  exact putAddr_effect hput

/-- The registers of LDM, which wrap from R15 to R0 (R212). -/
def runOf (d : RegCode) (k : Nat) : List RegCode := (List.range k).map fun j => d + BitVec.ofNat 4 j

theorem runOf_succ (d : RegCode) (k : Nat) : runOf d (k + 1) = d :: runOf (d + 1) k := by
  simp only [runOf, List.range_succ_eq_map, List.map_cons, List.map_map, List.cons.injEq]
  refine ⟨by simp, List.map_congr_left fun j _ => ?_⟩
  simp only [Function.comp_apply, Nat.succ_eq_add_one, BitVec.ofNat_add]
  rw [BitVec.add_assoc, BitVec.add_comm (BitVec.ofNat 4 j)]
  rfl

theorem loadRegs_effect : ∀ {k : Nat} {d : RegCode} {a : Address} {s t : State}, loadRegs k d a s = .ok t →
    Effect s t (bothHalves ((runOf d k).map s.phys)) [] []
  | 0, _, _, s, _, h => by cases h; exact Effect.refl s
  | k + 1, d, a, s, t, h => by
    obtain ⟨v, _, hrest⟩ := bind_ok.1 h
    have rest := loadRegs_effect hrest
    rw [runOf_succ]
    exact (Effect.setReg s d v).trans rest

theorem storeRegs_effect : ∀ {k : Nat} {r : RegCode} {a : Address} {s t : State}, storeRegs k r a s = .ok t → Effect s t [] [] []
  | 0, _, _, s, _, h => by cases h; exact Effect.refl s
  | k + 1, r, a, s, t, h => by
    obtain ⟨u, hstore, hrest⟩ := bind_ok.1 h
    exact (wordEffect.store_ok hstore).trans (storeRegs_effect hrest)

theorem execLdmLoad_effect {d : RegCode} {src : MemOp} {k : BitVec 4} (h : execLdmLoad d src k s = .next t) :
    Effect s t (bothHalves ((runOf d (k.toNat + 1)).map s.phys)) [] [] := by
  obtain ⟨_, _, hload⟩ := bind_ok.1 (finish_next.1 h)
  exact loadRegs_effect hload

theorem execLdmStore_effect {dst : MemOp} {r : RegCode} {k : BitVec 4} (h : execLdmStore dst r k s = .next t) : Effect s t [] [] [] := by
  obtain ⟨_, _, hstore⟩ := bind_ok.1 (finish_next.1 h)
  exact storeRegs_effect hstore

/-! ### The stack -/

theorem pushWord_effect {r : RegCode} {v : Word} (h : s.pushWord r v = .ok t) : Effect s t (wordHalves s.phys (s.offReg r)) [] [] := by
  obtain ⟨a, _, _, rfl⟩ := pushWord_ok h
  exact (Effect.setReg s _ _).trans (Change.putWord _ _ _).effect

theorem pushLong_effect {r : RegCode} {v : Long} (h : s.pushLong r v = .ok t) : Effect s t (wordHalves s.phys (s.offReg r)) [] [] := by
  obtain ⟨a, _, _, rfl⟩ := pushLong_ok h
  exact (Effect.setReg s _ _).trans (Change.putLong _ _ _).effect

theorem popWord_effect {r : RegCode} {v : Word} (h : s.popWord r = .ok (v, t)) : Effect s t (wordHalves s.phys (s.offReg r)) [] [] := by
  obtain ⟨a, _, _, _, rfl⟩ := popWord_ok.1 h
  exact Effect.setReg s _ _

theorem popLong_effect {r : RegCode} {v : Long} (h : s.popLong r = .ok (v, t)) : Effect s t (wordHalves s.phys (s.offReg r)) [] [] := by
  obtain ⟨a, _, _, _, rfl⟩ := popLong_ok.1 h
  exact Effect.setReg s _ _

/-- POP moves the stack pointer and then writes its destination (R216). -/
theorem execPop_effect {dst : RegMem} {sp : RegCode} (h : execPop dst sp s = .next t) :
    Effect s t (wordHalves s.phys (s.offReg sp) ++ regMemHalves wordHalves s.phys dst) [] [] := by
  replace h := finish_next.1 h
  split at h
  · cases h
  · obtain ⟨⟨v, u⟩, hpop, hwrite⟩ := bind_ok.1 h
    have popped := popWord_effect hpop
    have written := writeRegMem_effect wordEffect hwrite
    rw [popped.phys] at written
    exact popped.trans written

theorem execPopl_effect {dst : RegMem} {sp : RegCode} (h : execPopl dst sp s = .next t) :
    Effect s t (wordHalves s.phys (s.offReg sp) ++ regMemHalves pairHalves s.phys dst) [] [] := by
  replace h := finish_next.1 h
  split at h
  · cases h
  · obtain ⟨⟨v, u⟩, hpop, hwrite⟩ := bind_ok.1 h
    have popped := popLong_effect hpop
    have written := writeRegMem_effect longEffect hwrite
    rw [popped.phys] at written
    exact popped.trans written

theorem execPush_effect {sp : RegCode} {src : RegMem} (h : execPush sp src s = .next t) :
    Effect s t (wordHalves s.phys (s.offReg sp)) [] [] := by
  replace h := finish_next.1 h
  split at h
  · cases h
  · obtain ⟨_, _, hpush⟩ := bind_ok.1 h
    exact pushWord_effect hpush

theorem execPushl_effect {sp : RegCode} {src : RegMem} (h : execPushl sp src s = .next t) :
    Effect s t (wordHalves s.phys (s.offReg sp)) [] [] := by
  replace h := finish_next.1 h
  split at h
  · cases h
  · obtain ⟨_, _, hpush⟩ := bind_ok.1 h
    exact pushLong_effect hpush

/-! ### Logical operations -/

theorem logicReg_effect (W : WidthEffect w home) (hf : ∀ (f : Fcw) (r : BitVec n), FlagUpdate bits f (f.logic r))
    {op : BitVec n → BitVec n → BitVec n} {d : RegCode} {src : Src n} (h : logicReg w op d src s = .ok t) :
    Effect s t (home s.phys d) bits [] := by
  simp only [logicReg, bind_ok, Except.ok.injEq] at h
  obtain ⟨_, _, _, _, u, hset, rfl⟩ := h
  exact (W.set_ok hset).setFlags (hf _ _)

theorem complement_effect (W : WidthEffect w home) (hf : ∀ (f : Fcw) (r : BitVec n), FlagUpdate bits f (f.logic r)) {dst : RegMem}
    (h : complement w dst s = .ok t) : Effect s t (regMemHalves home s.phys dst) bits [] := by
  simp only [complement, bind_ok, Except.ok.injEq] at h
  obtain ⟨_, _, u, hwrite, rfl⟩ := h
  exact (writeRegMem_effect W hwrite).setFlags (hf _ _)

theorem testCond_effect (W : WidthEffect w home) {cc : CondCode} {d : RegCode} (h : testCond w cc d s = .ok t) :
    Effect s t (home s.phys d) [] [] := by
  obtain ⟨v, _, hif⟩ := bind_ok.1 h
  split at hif
  · exact W.set_ok hif
  · cases hif
    exact (Effect.refl s).mono

theorem testOp_effect (hf : ∀ (f : Fcw) (r : BitVec n), FlagUpdate bits f (f.logic r)) {dst : RegMem} (h : testOp w dst s = .ok t) :
    Effect s t [] bits [] := by
  simp only [testOp, bind_ok, Except.ok.injEq] at h
  obtain ⟨v, _, rfl⟩ := h
  exact (Effect.refl s).setFlags (hf _ v)

/-! ### Transfers of control -/

/-- A displacement counts words, so the PC stays even. -/
theorem even_add_double {x k : Word} (hx : x.getLsbD 0 = false) : (x + 2 * k).getLsbD 0 = false := by
  rw [getLsbD_add_even _ _ (by rw [BitVec.getLsbD, Nat.testBit_zero, BitVec.toNat_mul]; simp)]
  exact hx

theorem even_sub_double {x k : Word} (hx : x.getLsbD 0 = false) : (x - 2 * k).getLsbD 0 = false := by
  have hneg : x - 2 * k = x + 2 * (-k) := by rw [BitVec.sub_eq_add_neg, BitVec.mul_neg]
  rw [hneg]
  exact even_add_double hx

theorem decrementJump_effect (W : WidthEffect w home) {r : RegCode} {disp : BitVec 7} (h : decrementJump w r disp s = .ok t) :
    Effect s t (home s.phys r) [] [.pcOff] := by
  simp only [decrementJump, bind_ok, Except.ok.injEq] at h
  obtain ⟨v, _, u, hset, rfl⟩ := h
  have set := W.set_ok hset
  split
  · exact set.mono
  · exact (set.trans (Effect.movePc u fun heven => even_sub_double (u.pcEven_iff.1 heven))).mono

theorem State.variant_of_segmented {s : State} (h : s.segmented = true) : s.cfg.variant = .amz8001 := by
  simp only [State.segmented, Bool.and_eq_true, beq_iff_eq] at h
  exact h.1

theorem jumpTo_effect {a : Address} (h : s.jumpTo a = .ok t) : Effect s t [] [] [.pcSeg, .pcOff] := by
  obtain ⟨heven, rfl⟩ := jumpTo_ok.1 h
  refine Effect.jump s heven ?_
  split
  · next hseg => exact .inl (State.variant_of_segmented hseg)
  · exact .inr rfl

/-- The implied stack pointer is the low register of RR14 or R15, so R15 in every mode (R301). -/
theorem pushPc_effect (h : s.pushPc = .ok t) : Effect s t (wordHalves s.phys 15) [] [] := by
  have hpush := pushPc_ok h
  split at hpush
  · next hseg =>
    obtain ⟨w, _, hlong⟩ := hpush
    have hoff : s.drawn.drawn.offReg 14 = 15 := if_pos hseg
    have pushed := pushLong_effect hlong
    rw [hoff] at pushed
    exact (Effect.drawn s).trans ((Effect.drawn _).trans pushed)
  · next hseg =>
    have hoff : s.offReg 15 = 15 := if_neg hseg
    have pushed := pushWord_effect hpush
    rwa [hoff] at pushed

theorem popPc_effect (h : s.popPc = .ok t) : Effect s t (wordHalves s.phys 15) [] [.pcSeg, .pcOff] := by
  have hpop := popPc_ok.1 h
  split at hpop
  · next hseg =>
    obtain ⟨w, u, hlong, heven, rfl⟩ := hpop
    have hoff : s.offReg 14 = 15 := if_pos hseg
    have popped := popLong_effect hlong
    rw [hoff] at popped
    have hv := State.variant_of_segmented hseg
    exact (popped.trans (Effect.jump u heven (.inl (by rw [popped.cfg, hv])))).mono
  · next hseg =>
    obtain ⟨w, u, hword, heven, rfl⟩ := hpop
    have hoff : s.offReg 15 = 15 := if_neg hseg
    have popped := popWord_effect hword
    rw [hoff] at popped
    exact (popped.trans (Effect.jump u heven (.inr rfl))).mono

theorem execCall_effect {dst : MemOp} (h : execCall dst s = .next t) : Effect s t (wordHalves s.phys 15) [] [.pcSeg, .pcOff] := by
  simp only [execCall, finish_next, bind_ok] at h
  obtain ⟨_, _, u, hpush, hjump⟩ := h
  exact ((pushPc_effect hpush).trans (jumpTo_effect hjump)).mono

theorem execCalr_effect {disp : BitVec 12} (h : execCalr disp s = .next t) : Effect s t (wordHalves s.phys 15) [] [.pcOff] := by
  simp only [execCalr, finish_next, bind_ok, Except.ok.injEq] at h
  obtain ⟨u, hpush, rfl⟩ := h
  exact ((pushPc_effect hpush).trans (Effect.movePc u fun heven => even_sub_double (u.pcEven_iff.1 heven))).mono

theorem execJp_effect {cc : CondCode} {dst : MemOp} (h : execJp cc dst s = .next t) : Effect s t [] [] [.pcSeg, .pcOff] := by
  obtain ⟨a, _, hif⟩ := bind_ok.1 (finish_next.1 h)
  split at hif
  · exact jumpTo_effect hif
  · cases hif
    exact (Effect.refl s).mono

theorem execJr_effect {cc : CondCode} {disp : BitVec 8} (h : execJr cc disp s = .next t) : Effect s t [] [] [.pcOff] := by
  cases finish_next.1 h
  split
  · exact Effect.movePc s fun heven => even_add_double (s.pcEven_iff.1 heven)
  · exact (Effect.refl s).mono

theorem execRet_effect {cc : CondCode} (h : execRet cc s = .next t) : Effect s t (wordHalves s.phys 15) [] [.pcSeg, .pcOff] := by
  replace h := finish_next.1 h
  split at h
  · exact popPc_effect h
  · cases h
    exact (Effect.refl s).mono

/-! ### Rotates and shifts -/

theorem rotateReg_effect (W : WidthEffect w home) {one : BitVec n → Bool → BitVec n × Bool} {d : RegCode} {two : Bool}
    (h : rotateReg w one d two s = .ok t) : Effect s t (home s.phys d) [.c, .z, .s, .pv] [] := by
  simp only [rotateReg, bind_ok, Except.ok.injEq] at h
  obtain ⟨v, _, u, hset, rfl⟩ := h
  have set : Effect s u (home s.phys d) [] [] := by
    cases two
    · exact W.set_ok hset
    · exact (Effect.drawn s).trans (W.set_ok hset)
  exact set.setFlags (Fcw.czsv_update _ _ _ _ _)

/-- A draw that is made or not. -/
theorem Effect.drawnIf (s : State) (p : Prop) [Decidable p] : Effect s (if p then s.drawn else s) [] [] [] := by
  split
  · exact Effect.drawn s
  · exact Effect.refl s

theorem shiftReg_effect (W : WidthEffect w home) {kind : ShiftKind} {d : RegCode} {c : Int} (h : shiftReg w kind d c s = .ok t) :
    Effect s t (home s.phys d) [.c, .z, .s, .pv] [] := by
  unfold shiftReg at h
  split at h
  · cases h
  · simp only [bind_ok, Except.ok.injEq] at h
    obtain ⟨v, _, u, hset, rfl⟩ := h
    have draws := (Effect.drawnIf s ((shiftBy kind v c).2.isNone = true)).trans (Effect.drawnIf _ (kind = .logical))
    have set := W.set_ok hset
    rw [draws.phys] at set
    exact (draws.trans set).setFlags (Fcw.czsv_update _ _ _ _ _)

theorem Effect.setRbTwice (s : State) (l r : RegCode) (link src : Byte) :
    Effect s ((s.drawn.setRb r src).setRb l link) (byteHalves s.phys r ++ byteHalves s.phys l) [] [] :=
  (Effect.drawn s).trans ((Effect.setRb _ r src).trans (Effect.setRb _ l link))

/-- Both registers of a digit rotate are written, whichever field names the link (R346). -/
theorem rotateDigit_effect {f : Byte → Byte → Byte × Byte} {hi lo : RegCode} (h : rotateDigit f hi lo s = .ok t) :
    Effect s t (byteHalves s.phys hi ++ byteHalves s.phys lo) [.z, .s] [] := by
  simp only [rotateDigit] at h
  split at h
  · cases h
  · cases h
    refine ((Effect.setRbTwice s _ _ _ _).setFlags (Fcw.zs_update _ _ _)).mono ?_
    cases s.cfg.rldbFieldOrder <;> simp [digitFields, byteHalves]

end

end Sys2Proof.Machine
end

section
/-! SUPPORT. The effects of the block, input/output and CPU control operations. -/

namespace Sys2Proof.Machine

section
variable {n : Nat} {w : Width n} {home : (RegCode → Fin 18) → RegCode → List (Fin 18 × Bool)} {bits : List FcwBit} {s t : State}
  {halves : List (Fin 18 × Bool)} {parts : List Part}

/-! ### The last steps of an iteration, after an effect -/

theorem Effect.thenSet (W : WidthEffect w home) (e : Effect s t halves bits parts) {r : RegCode} {v : BitVec n} {u : State}
    (h : w.set t r v = .ok u) (hsn : .sn ∉ bits := by simp) : Effect s u (halves ++ home s.phys r) bits parts := by
  have set := W.set_ok h
  rw [e.phys hsn] at set
  simpa using e.trans set

theorem Effect.thenReg (e : Effect s t halves bits parts) (r : RegCode) (v : Word) (hsn : .sn ∉ bits := by simp) :
    Effect s (t.setReg r v) (halves ++ wordHalves s.phys r) bits parts :=
  e.thenSet wordEffect rfl hsn

theorem Effect.thenAutoStep (e : Effect s t halves bits parts) (r : RegCode) (k : Word) (hsn : .sn ∉ bits := by simp)
    (hseg : .seg ∉ bits := by simp) : Effect s (t.autoStep r k) (halves ++ wordHalves s.phys (s.offReg r)) bits parts := by
  rw [State.autoStep, e.offReg hseg]
  exact e.thenReg (s.offReg r) _ hsn

theorem Effect.thenCountDown (e : Effect s t halves bits parts) (r : RegCode) (hsn : .sn ∉ bits := by simp) :
    Effect s (t.countDown r) (halves ++ wordHalves s.phys r) bits parts :=
  e.thenReg r _ hsn

/-- An update of the flags that is written from the state after the operation. -/
theorem Effect.setFlagsAfter (e : Effect s t halves [] parts) {f : Fcw} (k : FlagUpdate bits t.fcw f) :
    Effect s (t.setFcw f) halves bits parts := by
  rw [e.fcw.eq] at k
  exact e.setFlags k

theorem Effect.thenDrawn (e : Effect s t halves bits parts) : Effect s t.drawn halves bits parts := by
  simpa using e.trans (Effect.drawn t)

theorem Effect.thenBlockFlags (e : Effect s t halves [] parts) (r : RegCode) : Effect s (blockFlags r t) halves [.z, .pv] parts :=
  e.thenDrawn.setFlagsAfter (Fcw.zv_update t.fcw _ _)

theorem Effect.thenCompareFlags (e : Effect s t halves [] parts) (found : Bool) (r : RegCode) :
    Effect s (compareFlags found r t) halves [.c, .z, .s, .pv] parts :=
  e.thenDrawn.thenDrawn.setFlagsAfter (Fcw.czsv_update t.fcw _ _ _ _)

/-! ### One iteration -/

theorem loadStep_effect (W : WidthEffect w home) {delta : Word} {d p r : RegCode} (h : loadStep w delta d p r s = .ok t) :
    Effect s t (bothHalves ([s.offReg p, s.offReg d, r].map s.phys)) [.z, .pv] [] := by
  unfold loadStep at h
  split at h
  · simp only [bind_ok, Except.ok.injEq] at h
    obtain ⟨_, _, _, _, _, _, u, hstore, rfl⟩ := h
    exact ((((W.store_ok hstore).thenAutoStep p delta).thenAutoStep d delta).thenCountDown r).thenBlockFlags r
  · cases h

theorem compareString_effect {regs : List RegCode} {delta : Word} {d p r : RegCode} {cc : CondCode} {found : Bool}
    (h : compareString w regs delta d p r cc s = .ok (found, t)) :
    Effect s t (bothHalves ([s.offReg p, r].map s.phys)) [.c, .z, .s, .pv] [] := by
  unfold compareString at h
  split at h
  · simp only [bind_ok, Except.ok.injEq, Prod.mk.injEq] at h
    obtain ⟨_, _, _, _, _, _, _, rfl⟩ := h
    exact ((((Effect.refl s).thenCountDown r).thenCompareFlags _ r).thenAutoStep p delta).mono
      (by simp [bothHalves, wordHalves, wordHome])
  · cases h

theorem compareStrings_effect {delta : Word} {d p r : RegCode} {cc : CondCode} {found : Bool}
    (h : compareStrings w delta d p r cc s = .ok (found, t)) :
    Effect s t (bothHalves ([s.offReg p, s.offReg d, r].map s.phys)) [.c, .z, .s, .pv] [] := by
  unfold compareStrings at h
  split at h
  · simp only [bind_ok, Except.ok.injEq, Prod.mk.injEq] at h
    obtain ⟨_, _, _, _, _, _, _, _, _, rfl⟩ := h
    exact (((((Effect.refl s).thenCountDown r).thenCompareFlags _ r).thenAutoStep p delta).thenAutoStep d delta).mono
      (by simp [bothHalves, wordHalves, wordHome])
  · cases h

theorem translateStep_effect {delta : Word} {d p r : RegCode} (h : translateStep delta d p r s = .ok t) :
    Effect s t (bothHalves ([s.offReg d, r].map s.phys)) [.z, .pv] [] := by
  unfold translateStep at h
  split at h
  · simp only [bind_ok, Except.ok.injEq] at h
    obtain ⟨a, _, e, _, rfl⟩ := h
    exact (((Change.writeByte s a e).effect.thenAutoStep d delta).thenCountDown r).thenBlockFlags r
  · cases h

theorem testStep_effect {delta : Word} {d p r : RegCode} (h : testStep delta d p r s = .ok t) :
    Effect s t (bothHalves ([s.offReg d, r].map s.phys) ++ byteHalves s.phys 1) [.c, .z, .s, .pv] [] := by
  unfold testStep at h
  split at h
  · simp only [bind_ok, Except.ok.injEq] at h
    obtain ⟨_, _, e, _, rfl⟩ := h
    exact ((((Effect.setRb s 1 e).thenAutoStep d delta).thenCountDown r).thenCompareFlags _ r).mono
      (by simp [bothHalves, wordHalves, wordHome, byteHalves])
  · cases h

theorem inputStep_effect (W : WidthEffect w home) {ev : Word → OutEvent} {cut : Word → BitVec n} {delta : Word} {d p r : RegCode}
    (h : inputStep w ev cut delta d p r s = .ok t) :
    Effect s t (bothHalves ([s.offReg d, r].map s.phys)) [.z, .pv] [.events, .portAnswers] := by
  unfold inputStep at h
  split at h
  · simp only [bind_ok, Except.ok.injEq] at h
    obtain ⟨_, _, u, hstore, rfl⟩ := h
    exact ((((Effect.portRead s _).trans (W.store_ok hstore)).thenAutoStep d delta).thenCountDown r).thenBlockFlags r
  · cases h

theorem outputStep_effect {ev : Word → BitVec n → OutEvent} {delta : Word} {d p r : RegCode} (h : outputStep w ev delta d p r s = .ok t) :
    Effect s t (bothHalves ([s.offReg p, r].map s.phys)) [.z, .pv] [.events] := by
  unfold outputStep at h
  split at h
  · simp only [bind_ok, Except.ok.injEq] at h
    obtain ⟨_, _, _, _, rfl⟩ := h
    exact (((Effect.emit s _).thenAutoStep p delta).thenCountDown r).thenBlockFlags r
  · cases h

/-! ### Single and repeating forms -/

/-- An iteration of a repeating form (R371): an effect, and then the PC goes back unless the instruction is done. -/
def Iterates (s t : State) (halves : List (Fin 18 × Bool)) (bits : List FcwBit) (parts : List Part) : Prop :=
  ∃ u done, Effect s u halves bits parts ∧ t = again done u

theorem Iterates.effect (h : Iterates s t halves bits parts) : Effect s t halves bits (.pcOff :: .repeating :: parts) := by
  obtain ⟨u, done, e, rfl⟩ := h
  exact (e.trans (Effect.again u done)).mono

/-- An iteration marks that the instruction goes on exactly when the PC went back. -/
theorem Iterates.mark (h : Iterates s t halves bits parts) (hpc : .pcOff ∉ parts) (hrep : .repeating ∉ parts) :
    t.repeating = (s.repeating || decide (t.pcOff ≠ s.pcOff)) := by
  obtain ⟨u, done, e, rfl⟩ := h
  cases done
  · have hne : u.pcOff - 4 ≠ s.pcOff := by
      rw [e.pcOff hpc]
      bv_omega
    have hback : decide ((again false u).pcOff ≠ s.pcOff) = true := decide_eq_true hne
    rw [hback, Bool.or_true]
    rfl
  · simp [e.pcOff hpc, e.repeating hrep]

theorem once_effect {p : Except Refusal (Bool × State)} (hp : ∀ {found u}, p = .ok (found, u) → Effect s u halves bits parts)
    (h : once p = .ok t) : Effect s t halves bits parts := by
  simp only [once, bind_ok, Except.ok.injEq] at h
  obtain ⟨_, hstep, rfl⟩ := h
  exact hp hstep

theorem untilFound_iterates {r : RegCode} {p : Except Refusal (Bool × State)}
    (hp : ∀ {found u}, p = .ok (found, u) → Effect s u halves bits parts) (h : untilFound r p = .ok t) :
    Iterates s t halves bits parts := by
  simp only [untilFound, bind_ok, Except.ok.injEq] at h
  obtain ⟨_, hstep, rfl⟩ := h
  exact ⟨_, _, hp hstep, rfl⟩

theorem untilZero_iterates {r : RegCode} {p : Except Refusal State} (hp : ∀ {u}, p = .ok u → Effect s u halves bits parts)
    (h : untilZero r p = .ok t) : Iterates s t halves bits parts := by
  simp only [untilZero, bind_ok, Except.ok.injEq] at h
  obtain ⟨_, hstep, rfl⟩ := h
  exact ⟨_, _, hp hstep, rfl⟩

theorem untilNonzero_iterates {r : RegCode} {p : Except Refusal State} (hp : ∀ {u}, p = .ok u → Effect s u halves bits parts)
    (h : untilNonzero r p = .ok t) : Iterates s t halves bits parts := by
  simp only [untilNonzero, bind_ok, Except.ok.injEq] at h
  obtain ⟨_, hstep, rfl⟩ := h
  exact ⟨_, _, hp hstep, rfl⟩

/-! ### Ports -/

theorem inputReg_effect (W : WidthEffect w home) {ev : OutEvent} {cut : Word → BitVec n} {d : RegCode}
    (h : inputReg w ev cut d s = .ok t) : Effect s t (home s.phys d) [] [.events, .portAnswers] :=
  (Effect.portRead s ev).thenSet W h

theorem outputReg_effect {ev : BitVec n → OutEvent} {r : RegCode} (h : outputReg w ev r s = .ok t) : Effect s t [] [] [.events] := by
  simp only [outputReg, bind_ok, Except.ok.injEq] at h
  obtain ⟨v, _, rfl⟩ := h
  exact Effect.emit s (ev v)

/-! ### Control registers and the program status -/

theorem needCtl_ok {v : Variant} {c : Ctl} {x : Unit} (h : needCtl v c = .ok x) : v = .amz8001 ∨ (c ≠ .psapseg ∧ c ≠ .nspseg) := by
  unfold needCtl at h
  split at h
  · cases h
  · next hn =>
    cases v
    · exact .inl rfl
    · simpa using hn

theorem Effect.ctlRead (s : State) (c : Ctl) : Effect s (s.ctlRead c) [] [] [] := by
  cases c <;> first | exact Effect.drawn s | exact Effect.refl s

theorem Effect.setPsapSeg (s : State) (g : SegNum) (hv : s.cfg.variant = .amz8001) : Effect s { s with psapSeg := g } [] [] [.psapSeg] :=
  { (Effect.refl s).mono (parts' := [.psapSeg]) with
    psapSeg := fun h => absurd (by simp) h
    fitsVariant := fun _ => by simp [State.fitsVariant, hv] }

theorem Effect.setPsapOff (s : State) (b : Byte) : Effect s { s with psapOff := b } [] [] [.psapOff] :=
  { (Effect.refl s).mono (parts' := [.psapOff]) with psapOff := fun h => absurd (by simp) h }

theorem Effect.setRefresh (s : State) (r : Refresh) : Effect s { s with refresh := r } [] [] [.refresh] :=
  { (Effect.refl s).mono (parts' := [.refresh]) with refresh := fun h => absurd (by simp) h }

theorem Effect.setHalted (s : State) (b : Bool) : Effect s { s with halted := b } [] [] [.halted] :=
  { (Effect.refl s).mono (parts' := [.halted]) with halted := fun h => absurd (by simp) h }

/-- MREQ draws Z, S, its register and MO (R455; log 37). -/
theorem execMreq_effect (d : RegCode) (s : State) :
    Effect s (((s.drawn.drawn.drawn.drawn.setReg d s.drawn.drawn.free).setFcw
      { s.fcw with z := s.freeBit, s := s.drawn.freeBit }).setMultiMicro s.drawn.drawn.drawn.freeBit)
      (wordHalves s.phys d) [.z, .s] [.events, .line] := by
  have set := (Effect.refl s).thenDrawn.thenDrawn.thenDrawn.thenDrawn.thenReg d s.drawn.drawn.free
  exact (set.setFlags (Fcw.zs_update s.fcw _ _)).trans (Effect.setMultiMicro _ _)

/-- A new status: every field of the FCW and an even PC; the segment of the AMZ8002's PC stays (R440, R35). -/
theorem Effect.newStatus (s : State) (f : Word) {g : SegNum} {x : Word} (hx : x.getLsbD 0 = false)
    (hg : s.cfg.variant = .amz8001 ∨ g = s.pcSeg) :
    Effect s { s with fcw := s.fcw.ofWord s.cfg.variant f, pcSeg := g, pcOff := x } [] allBits [.pcSeg, .pcOff] :=
  (Effect.loadFcw s f).trans (Effect.jump _ hx hg)

theorem loadStatus_effect {a : Address} (h : s.loadStatus a = .ok t) : Effect s t [] allBits [.pcSeg, .pcOff] := by
  unfold State.loadStatus at h
  split at h
  · next hseg =>
    simp only [bind_ok, loadFcw_ok, setPcOff_ok] at h
    obtain ⟨w, _, _, _, off, _, _, ⟨_, rfl⟩, heven, rfl⟩ := h
    exact Effect.newStatus s w heven (.inl (State.variant_of_segmented hseg))
  · simp only [bind_ok, loadFcw_ok, setPcOff_ok] at h
    obtain ⟨w, _, off, _, _, ⟨_, rfl⟩, heven, rfl⟩ := h
    exact Effect.newStatus s w heven (.inr rfl)

theorem returnFromTrap_effect (h : s.returnFromTrap = .ok t) : Effect s t (bothHalves [17]) allBits [.pcSeg, .pcOff] := by
  obtain ⟨_, _, hback⟩ := returnFromTrap_ok h
  split at hback
  · next hseg =>
    obtain ⟨heven, rfl⟩ := hback
    exact (Change.setGr s 17 _).effect.trans (Effect.newStatus _ _ heven (.inl (State.variant_of_segmented hseg)))
  · obtain ⟨heven, rfl⟩ := hback
    exact (Change.setGr s 17 _).effect.trans (Effect.newStatus _ _ heven (.inr rfl))

end

end Sys2Proof.Machine
end

section
/-! SUPPORT. Trap entry (spec/60_exceptions.md R515 to R522): what it changes, that it succeeds when the system stack and the new program
status area are fit, and what it then leaves. -/

namespace Sys2Proof.Machine

/-! ### Words in memory -/

theorem Change.wordAt {s t : State} {regs : List (Fin 18)} {keys : List Nat} (c : Change s t regs keys) {a : Address}
    (h0 : s.key a ∉ keys) (h1 : s.key (a.plus 1) ∉ keys) : t.wordAt a = s.wordAt a := by
  unfold State.wordAt State.readByte
  rw [c.key, c.mem _ h0, c.mem _ h1]

theorem Change.readByte {s t : State} {regs : List (Fin 18)} {keys : List Nat} (c : Change s t regs keys) {a : Address}
    (h : s.key a ∉ keys) : t.readByte a = s.readByte a := by
  unfold State.readByte
  rw [c.key, c.mem _ h]

/-- A word is not touched by a store of a word at another distance from the same address. -/
theorem State.wordAt_putWord_apart (s : State) (a : Address) (i j v : Word) (h0 : j ≠ i) (h1 : j ≠ i + 1) (h2 : j + 1 ≠ i) :
    (s.putWord (a.plus i) v).wordAt (a.plus j) = s.wordAt (a.plus j) := by
  have h3 : j + 1 ≠ i + 1 := by bv_omega
  apply (Change.putWord s (a.plus i) v).wordAt <;>
    simp only [Address.plus_plus, List.mem_cons, List.not_mem_nil, or_false, not_or] <;>
    exact ⟨s.key_plus_ne a _ _ ‹_›, s.key_plus_ne a _ _ ‹_›⟩

theorem State.writeWord_of_even (s : State) (a : Address) (v : Word) (h : a.off.getLsbD 0 = false) :
    s.writeWord a v = .ok (s.putWord a v) :=
  writeWord_ok.2 ⟨h, rfl⟩

theorem State.readWord_of_even (s : State) (a : Address) (h : a.off.getLsbD 0 = false) : s.readWord a = .ok (s.wordAt a) :=
  readWord_ok.2 ⟨h, rfl⟩

/-! ### The frame -/

/-- The state in which the frame is pushed: system mode, segmented on the AMZ8001, no longer halted (R515). -/
def State.trapState (s : State) : State :=
  { s with halted := false, fcw := { s.fcw with sn := true, seg := s.cfg.variant == .amz8001 || s.fcw.seg } }

/-- The frame of the part. -/
def State.pushFrame (s : State) (off old ident : Word) : Except Refusal State :=
  match s.cfg.variant with
  | .amz8001 => s.pushFrame8001 s.pcSeg off old ident
  | .amz8002 => s.pushFrame8002 off old ident

/-- Trap entry pushes the frame and then loads the new status. -/
theorem State.trapEntry_eq (s : State) (kind : TrapKind) (ident off : Word) :
    s.trapEntry kind ident off = s.trapState.pushFrame off s.fcw.word ident >>= fun u => u.loadEntry kind ident := by
  unfold State.trapEntry State.pushFrame
  obtain ⟨⟨variant, _, _, _, _⟩, _, _, _, _, _, _, _, _, _, _, _, _, _, _, _, _⟩ := s
  cases variant <;> rfl

theorem State.systemStack_8001 {s : State} (hv : s.cfg.variant = .amz8001) : s.systemStack = { seg := segOf s.rs14, off := s.rs15 } := by
  unfold State.systemStack
  rw [hv]

theorem State.systemStack_8002 {s : State} (hv : s.cfg.variant = .amz8002) : s.systemStack = { seg := s.pcSeg, off := s.rs15 } := by
  unfold State.systemStack
  rw [hv]

theorem frameKeys_8001 {s : State} (hv : s.cfg.variant = .amz8001) : frameKeys s = s.keysFrom (s.systemStack.plus (-8)) 8 := by
  unfold frameKeys State.systemStack
  rw [hv]

theorem frameKeys_8002 {s : State} (hv : s.cfg.variant = .amz8002) : frameKeys s = s.keysFrom (s.systemStack.plus (-6)) 6 := by
  unfold frameKeys State.systemStack
  rw [hv]

/-- The words of the AMZ8001's frame below an address: PC offset, PC segment word, FCW, identifier. -/
def State.storeFrame8001 (s : State) (sp : Address) (off seg old ident : Word) : State :=
  (((s.putWord (sp.plus (-2)) off).drawn.drawn.putWord (sp.plus (-4)) seg).putWord (sp.plus (-6)) old).putWord (sp.plus (-8)) ident

/-- The words of the AMZ8002's frame below an address: PC, FCW, identifier. -/
def State.storeFrame8002 (s : State) (sp : Address) (off old ident : Word) : State :=
  ((s.putWord (sp.plus (-2)) off).putWord (sp.plus (-4)) old).putWord (sp.plus (-6)) ident

theorem storeFrame8001_change (s : State) (sp : Address) (off seg old ident : Word) :
    Change s (s.storeFrame8001 sp off seg old ident) [] (s.keysFrom (sp.plus (-8)) 8) := by
  have stores := ((((Change.putWord s (sp.plus (-2)) off).trans (Change.drawn _)).trans (Change.drawn _)).trans
    (Change.putWord _ (sp.plus (-4)) seg)).trans ((Change.putWord _ (sp.plus (-6)) old).trans (Change.putWord _ (sp.plus (-8)) ident))
  refine stores.mono (by simp) fun k => ?_
  simp [State.keysFrom, List.range_succ, or_assoc, or_comm, or_left_comm]

theorem storeFrame8002_change (s : State) (sp : Address) (off old ident : Word) :
    Change s (s.storeFrame8002 sp off old ident) [] (s.keysFrom (sp.plus (-6)) 6) := by
  have stores := (Change.putWord s (sp.plus (-2)) off).trans
    ((Change.putWord _ (sp.plus (-4)) old).trans (Change.putWord _ (sp.plus (-6)) ident))
  refine stores.mono (by simp) fun k => ?_
  simp [State.keysFrom, List.range_succ, or_assoc, or_comm, or_left_comm]

/-- The frame of the AMZ8001 reads back, identifier lowest. -/
theorem storeFrame8001_words (s : State) (sp : Address) (off seg old ident : Word) (hwf : s.mem.wf = true) :
    let t := s.storeFrame8001 sp off seg old ident
    t.wordAt (sp.plus (-8)) = ident ∧ t.wordAt (sp.plus (-6)) = old ∧ t.wordAt (sp.plus (-4)) = seg ∧ t.wordAt (sp.plus (-2)) = off := by
  have wf1 : (s.putWord (sp.plus (-2)) off).drawn.drawn.mem.wf = true := s.wf_putWord (sp.plus (-2)) off hwf
  have wf2 := State.wf_putWord _ (sp.plus (-4)) seg wf1
  have wf3 := State.wf_putWord _ (sp.plus (-6)) old wf2
  unfold State.storeFrame8001
  refine ⟨State.wordAt_putWord_same _ _ _ wf3, ?_, ?_, ?_⟩
  · rw [State.wordAt_putWord_apart _ _ _ _ _ (by decide) (by decide) (by decide), State.wordAt_putWord_same _ _ _ wf2]
  · rw [State.wordAt_putWord_apart _ _ _ _ _ (by decide) (by decide) (by decide),
      State.wordAt_putWord_apart _ _ _ _ _ (by decide) (by decide) (by decide), State.wordAt_putWord_same _ _ _ wf1]
  · rw [State.wordAt_putWord_apart _ _ _ _ _ (by decide) (by decide) (by decide),
      State.wordAt_putWord_apart _ _ _ _ _ (by decide) (by decide) (by decide),
      State.wordAt_putWord_apart _ _ _ _ _ (by decide) (by decide) (by decide)]
    exact State.wordAt_putWord_same _ _ _ hwf

/-- The frame of the AMZ8002 reads back, identifier lowest. -/
theorem storeFrame8002_words (s : State) (sp : Address) (off old ident : Word) (hwf : s.mem.wf = true) :
    let t := s.storeFrame8002 sp off old ident
    t.wordAt (sp.plus (-6)) = ident ∧ t.wordAt (sp.plus (-4)) = old ∧ t.wordAt (sp.plus (-2)) = off := by
  have wf1 := s.wf_putWord (sp.plus (-2)) off hwf
  have wf2 := State.wf_putWord _ (sp.plus (-4)) old wf1
  unfold State.storeFrame8002
  refine ⟨State.wordAt_putWord_same _ _ _ wf2, ?_, ?_⟩
  · rw [State.wordAt_putWord_apart _ _ _ _ _ (by decide) (by decide) (by decide), State.wordAt_putWord_same _ _ _ wf1]
  · rw [State.wordAt_putWord_apart _ _ _ _ _ (by decide) (by decide) (by decide),
      State.wordAt_putWord_apart _ _ _ _ _ (by decide) (by decide) (by decide), State.wordAt_putWord_same _ _ _ hwf]

/-- What the frame is after a push, by part; `w` is the segment word, of which the segment number is known (log 38). -/
theorem pushFrame_ok {s t : State} {off old ident : Word} (h : s.pushFrame off old ident = .ok t) :
    (s.cfg.variant = .amz8001 ∧ ∃ w, segOf w = s.pcSeg ∧
        t = (s.storeFrame8001 s.systemStack off w old ident).setRs15 (s.rs15 - 8)) ∨
      (s.cfg.variant = .amz8002 ∧ t = (s.storeFrame8002 s.systemStack off old ident).setRs15 (s.rs15 - 6)) := by
  unfold State.pushFrame at h
  split at h
  · next hv =>
    obtain ⟨_, w, hw, rfl⟩ := pushFrame8001_ok h
    exact .inl ⟨hv, w, hw, by rw [State.systemStack_8001 hv]; rfl⟩
  · next hv =>
    obtain ⟨_, rfl⟩ := pushFrame8002_ok h
    exact .inr ⟨hv, by rw [State.systemStack_8002 hv]; rfl⟩

/-- The frame is pushed when the system stack pointer is even. -/
theorem pushFrame_of_even (s : State) (off old ident : Word) (heven : s.rs15.getLsbD 0 = false) :
    ∃ t, s.pushFrame off old ident = .ok t := by
  have below (g : SegNum) (k : Word) (hk : k.getLsbD 0 = false) : (Address.plus { seg := g, off := s.rs15 } k).off.getLsbD 0 = false := by
    rw [Address.plus_off, getLsbD_add_even _ _ hk]
    exact heven
  unfold State.pushFrame
  split
  · unfold State.pushFrame8001
    exact ⟨_, bind_ok.2 ⟨_, State.writeWord_of_even _ _ _ (below _ _ rfl), bind_ok.2 ⟨_, State.writeWord_of_even _ _ _ (below _ _ rfl),
      bind_ok.2 ⟨_, State.writeWord_of_even _ _ _ (below _ _ rfl), bind_ok.2 ⟨_, State.writeWord_of_even _ _ _ (below _ _ rfl), rfl⟩⟩⟩⟩⟩
  · unfold State.pushFrame8002
    exact ⟨_, bind_ok.2 ⟨_, State.writeWord_of_even _ _ _ (below _ _ rfl), bind_ok.2 ⟨_, State.writeWord_of_even _ _ _ (below _ _ rfl),
      bind_ok.2 ⟨_, State.writeWord_of_even _ _ _ (below _ _ rfl), rfl⟩⟩⟩⟩

/-- The frame is stored below the system stack pointer, which moves (R515). -/
theorem pushFrame_change {s t : State} {off old ident : Word} (h : s.pushFrame off old ident = .ok t) : Change s t [17] (frameKeys s) := by
  rcases pushFrame_ok h with ⟨hv, w, _, rfl⟩ | ⟨hv, rfl⟩
  · rw [frameKeys_8001 hv]
    exact ((storeFrame8001_change s _ off w old ident).trans (Change.setGr _ 17 _)).mono (by simp) (by simp)
  · rw [frameKeys_8002 hv]
    exact ((storeFrame8002_change s _ off old ident).trans (Change.setGr _ 17 _)).mono (by simp) (by simp)

/-! ### The effect of a trap -/

theorem Effect.trapState (s : State) : Effect s s.trapState [] [.seg, .sn] [.halted] :=
  { (Effect.refl s).mono (halves' := []) (bits' := [.seg, .sn]) (parts' := [.halted]) with
    fcw := by simp [fcwKept_iff, State.trapState]
    halted := fun h => absurd (by simp) h
    fitsVariant := fun h => by
      simp only [State.fitsVariant] at h ⊢
      cases hv : s.cfg.variant <;> simp_all [State.trapState] }

theorem State.newPcSeg_8002 (s : State) (kind : TrapKind) (ident : Word) :
    s.cfg.variant = .amz8001 ∨ s.newPcSeg kind ident = s.pcSeg := by
  unfold State.newPcSeg
  cases s.cfg.variant
  · exact .inl rfl
  · exact .inr rfl

theorem loadEntry_effect {s t : State} {kind : TrapKind} {ident : Word} (h : s.loadEntry kind ident = .ok t) :
    Effect s t [] allBits [.pcSeg, .pcOff] := by
  obtain ⟨_, heven, rfl⟩ := loadEntry_ok h
  exact Effect.newStatus s _ heven (s.newPcSeg_8002 kind ident)

/-- A trap changes the system stack pointer, the FCW and the PC, and ends a halt (R515, R516). -/
theorem trapEntry_effect {s t : State} {kind : TrapKind} {ident off : Word} (h : s.trapEntry kind ident off = .ok t) :
    Effect s t (bothHalves [17]) allBits [.halted, .pcSeg, .pcOff] := by
  rw [State.trapEntry_eq] at h
  obtain ⟨u, hpush, hload⟩ := bind_ok.1 h
  exact ((Effect.trapState s).trans ((pushFrame_change hpush).effect.trans (loadEntry_effect hload))).mono
    (by simp) (by simp [allBits]) (by simp)

theorem trapEntry_halted {s t : State} {kind : TrapKind} {ident off : Word} (h : s.trapEntry kind ident off = .ok t) :
    t.halted = false := by
  rw [State.trapEntry_eq] at h
  obtain ⟨u, hpush, hload⟩ := bind_ok.1 h
  rw [(loadEntry_effect hload).halted (by simp), (pushFrame_change hpush).halted]
  rfl

/-! ### The new status -/

theorem psaFcw_even (v : Variant) (kind : TrapKind) : (psaFcw v kind).getLsbD 0 = false := by
  cases v <;> cases kind <;> rfl

theorem psaPc_even (v : Variant) (kind : TrapKind) (ident : Word) : (psaPc v kind ident).getLsbD 0 = false := by
  have hfirst : (psaFcw v kind + 2).getLsbD 0 = false := (getLsbD_add_even _ _ (by decide)).trans (psaFcw_even v kind)
  unfold psaPc
  split
  · exact even_add_double hfirst
  · exact hfirst

/-- A word of the new program status area at an even offset is read (R522). -/
theorem State.psaWord_of_even (s : State) {k : Word} (hk : k.getLsbD 0 = false) : s.psaWord k = .ok (s.wordAt (s.psaAddr k)) := by
  refine s.readWord_of_even _ ((getLsbD_add_even _ _ hk).trans ?_)
  rw [BitVec.getLsbD_append]
  rfl

/-- The entry is loaded when it holds a valid FCW and an even PC. -/
theorem State.loadEntry_of_valid (s : State) (kind : TrapKind) (ident : Word) (hf : fcwReservedClear (s.newFcw kind) = true)
    (hpc : (s.newPcOff kind ident).getLsbD 0 = false) : ∃ t, s.loadEntry kind ident = .ok t := by
  have hsecond (v : Variant) : (psaPc v kind ident + 2).getLsbD 0 = false := (getLsbD_add_even _ _ (by decide)).trans (psaPc_even v kind ident)
  unfold State.newFcw at hf
  unfold State.newPcOff at hpc
  unfold State.loadEntry
  simp only [s.psaWord_of_even (psaFcw_even _ _), s.psaWord_of_even (psaPc_even _ _ _), s.psaWord_of_even (hsecond _), bind_of_ok]
  cases hv : s.cfg.variant <;> simp only [hv] at hf hpc ⊢ <;>
    exact ⟨_, bind_ok.2 ⟨_, loadFcw_ok.2 ⟨hf, rfl⟩, setPcOff_ok.2 ⟨hpc, rfl⟩⟩⟩

/-- A word with its reserved bits 0, loaded into the FCW, is the word the FCW then holds (R440). -/
theorem ofWord_isStatus (f : Fcw) (v : Variant) (w : Word) (h : fcwReservedClear w = true) : IsStatus v f (f.ofWord v w) w where
  seg := rfl
  low i hi := by
    simp only [fcwReservedClear, flagsReservedClear, loByte, BitVec.getLsbD_extractLsb', Bool.and_eq_true, Bool.not_eq_true'] at h
    rw [Fcw.getLsbD_word]
    interval_cases i <;> simp_all [Fcw.ofWord, Fcw.withFlags, loByte]

/-! ### Trap entry on a fit stack -/

/-- The frame leaves the entry of the event alone when it does not overlap it. -/
theorem Change.entry {s u : State} {regs : List (Fin 18)} {keys : List Nat} (c : Change s u regs keys) (kind : TrapKind) (ident : Word)
    (h : ∀ k ∈ entryOffsets s.cfg.variant kind ident, s.key (s.psaAddr k) ∉ keys ∧ s.key ((s.psaAddr k).plus 1) ∉ keys) :
    u.newFcw kind = s.newFcw kind ∧ u.newPcSeg kind ident = s.newPcSeg kind ident ∧ u.newPcOff kind ident = s.newPcOff kind ident := by
  have hword : ∀ k ∈ entryOffsets s.cfg.variant kind ident, u.wordAt (u.psaAddr k) = s.wordAt (s.psaAddr k) := fun k hk => by
    have haddr : u.psaAddr k = s.psaAddr k := by rw [State.psaAddr, State.psaAddr, c.psapSeg, c.psapOff]
    rw [haddr]
    exact c.wordAt (h k hk).1 (h k hk).2
  unfold State.newFcw State.newPcSeg State.newPcOff
  rw [c.cfg, c.pcSeg]
  cases hv : s.cfg.variant <;> simp only [hv, entryOffsets, List.forall_mem_cons] at hword ⊢
  · obtain ⟨h0, h1, h2, _⟩ := hword
    exact ⟨h0, by rw [h1], h2⟩
  · obtain ⟨h0, h1, _⟩ := hword
    exact ⟨h0, trivial, h1⟩

@[simp] theorem State.rs15_setRs15 (s : State) (v : Word) : (s.setRs15 v).rs15 = v := Vector.getElem_set_self ..

/-- The system stack after its pointer moved by k. -/
theorem Change.systemStack {s t : State} {keys : List Nat} (c : Change s t [17] keys) {k : Word} (hsp : t.rs15 = s.rs15 + k) :
    t.systemStack = s.systemStack.plus k := by
  have h14 : t.rs14 = s.rs14 := c.gr 16 (by decide)
  unfold State.systemStack
  rw [c.cfg, c.pcSeg, h14, hsp]
  cases s.cfg.variant <;> rfl

/-- The frame that a push leaves, read from the system stack pointer up (R515). -/
theorem pushFrame_words {s t : State} {off old ident : Word} (hwf : s.mem.wf = true) (h : s.pushFrame off old ident = .ok t) :
    t.wordAt t.systemStack = ident ∧ t.wordAt (t.systemStack.plus 2) = old ∧
      match s.cfg.variant with
      | .amz8001 => t.rs15 = s.rs15 - 8 ∧ segOf (t.wordAt (t.systemStack.plus 4)) = s.pcSeg ∧ t.wordAt (t.systemStack.plus 6) = off
      | .amz8002 => t.rs15 = s.rs15 - 6 ∧ t.wordAt (t.systemStack.plus 4) = off := by
  have c := pushFrame_change h
  rcases pushFrame_ok h with ⟨hv, w, hw, rfl⟩ | ⟨hv, rfl⟩
  · have hsp := c.systemStack (k := -8) ((State.rs15_setRs15 ..).trans (s.rs15.sub_eq_add_neg 8))
    obtain ⟨hident, hold, hseg, hoff⟩ := storeFrame8001_words s s.systemStack off w old ident hwf
    simp only [hv, hsp, Address.plus_plus, State.setRs15_wordAt, State.rs15_setRs15]
    exact ⟨hident, hold, trivial, (congrArg segOf hseg).trans hw, hoff⟩
  · have hsp := c.systemStack (k := -6) ((State.rs15_setRs15 ..).trans (s.rs15.sub_eq_add_neg 6))
    obtain ⟨hident, hold, hoff⟩ := storeFrame8002_words s s.systemStack off old ident hwf
    simp only [hv, hsp, Address.plus_plus, State.setRs15_wordAt, State.rs15_setRs15]
    exact ⟨hident, hold, trivial, hoff⟩

/-- Loading the new status does not move the system stack. -/
theorem State.systemStack_newStatus (u : State) (f : Fcw) (kind : TrapKind) (ident x : Word) :
    ({ u with fcw := f, pcSeg := u.newPcSeg kind ident, pcOff := x } : State).systemStack = u.systemStack := by
  unfold State.systemStack State.newPcSeg
  cases u.cfg.variant <;> rfl

/-- What trap entry leaves when the system stack and the new program status area are fit (R515). -/
theorem trapEntry_entered {s : State} {kind : TrapKind} {ident : Word} (off : Word) (hready : s.trapReady kind ident = true) :
    ∃ t, s.trapEntry kind ident off = .ok t ∧ IsEntered s kind ident off t ∧ t.requests = s.requests := by
  simp only [State.trapReady, Bool.and_eq_true, Bool.not_eq_true', List.all_eq_true, List.contains_eq_mem, decide_eq_false_iff_not] at hready
  obtain ⟨⟨⟨⟨hwf, heven⟩, hf⟩, hpc⟩, hentry⟩ := hready
  obtain ⟨u, hpush⟩ := pushFrame_of_even s.trapState off s.fcw.word ident heven
  have c : Change s.trapState u [17] (frameKeys s) := pushFrame_change hpush
  obtain ⟨hfcw, hseg, hoff⟩ : u.newFcw kind = s.newFcw kind ∧ u.newPcSeg kind ident = s.newPcSeg kind ident ∧
    u.newPcOff kind ident = s.newPcOff kind ident := c.entry kind ident hentry
  obtain ⟨t, hload⟩ := u.loadEntry_of_valid kind ident (hfcw ▸ hf) (hoff ▸ hpc)
  refine ⟨t, by rw [State.trapEntry_eq]; exact bind_ok.2 ⟨u, hpush, hload⟩, ?_⟩
  obtain ⟨-, -, rfl⟩ := loadEntry_ok hload
  obtain ⟨hident, hold, hsaved⟩ := pushFrame_words (s := s.trapState) hwf hpush
  have hstack := u.systemStack_newStatus (u.fcw.ofWord u.cfg.variant (u.newFcw kind)) kind ident (u.newPcOff kind ident)
  have hstatus : IsStatus s.cfg.variant s.fcw (u.fcw.ofWord u.cfg.variant (u.newFcw kind)) (s.newFcw kind) := by
    rw [hfcw, c.cfg, c.fcw]
    have hnew := ofWord_isStatus s.trapState.fcw s.cfg.variant _ hf
    refine ⟨hnew.low, hnew.seg.trans ?_⟩
    cases hv : s.cfg.variant <;> simp [State.trapState, hv]
  exact ⟨{
      status := hstatus
      pcSeg := hseg
      pcOff := hoff
      halted := c.halted
      identWord := by rw [hstack]; exact hident
      fcwWord := by rw [hstack]; exact hold
      savedPc := by rw [hstack]; exact hsaved
      otherRegs := fun j hj => c.gr j (by simpa using hj)
      otherBytes := fun a ha => c.readByte ha
      otherState := ⟨c.cfg, c.psapSeg, c.psapOff, c.refresh, c.multiMicroOut, c.events, c.portAnswers⟩ }, c.requests⟩

end Sys2Proof.Machine
end

section
/-! SUPPORT. The effect of every instruction, in the terms of the tables of the model's Safety file: the instructions that are not
privileged, the repeating forms, and the system instructions, in this order. -/

namespace Sys2Proof.Machine

/-! ### What an instruction that does not trap may change -/

/-- The word registers of an instruction that does not trap. -/
def ownWords (i : Instr) (s : State) : List (Fin 18) :=
  match i with
  | .iret => [17]
  | .ldctlWrite .nspseg _ => [14]
  | .ldctlWrite .nspoff _ => [15]
  | _ => (destCodes s i).map s.phys

/-- The halves of registers of an instruction that does not trap. -/
def ownHalves (i : Instr) (s : State) : List (Fin 18 × Bool) :=
  bothHalves (ownWords i s) ++ (destBytes i).map fun c => (s.phys (byteHome c), c.getLsbD 3)

/-- The parts of the state that a transfer of control changes. -/
def transferParts (i : Instr) : List Part :=
  (if changesPcSeg i then [.pcSeg] else []) ++ (if changesPcOff i then [.pcOff] else []) ++ (if repeats i then [.repeating] else [])

/-- The parts of the state that the input/output and multi-micro instructions change. -/
def outsideParts (i : Instr) : List Part :=
  (if readsPort i || writesPort i || writesLine i then [.events] else []) ++ (if readsPort i then [.portAnswers] else []) ++
    (if writesLine i then [.line] else [])

/-- The parts of the state that HALT and the writes of control registers change. -/
def controlParts (i : Instr) : List Part :=
  match i with
  | .halt => [.halted]
  | .ldctlWrite .psapseg _ => [.psapSeg]
  | .ldctlWrite .psapoff _ => [.psapOff]
  | .ldctlWrite .refresh _ => [.refresh]
  | _ => []

/-- The parts of the state of an instruction that does not trap. -/
def ownParts (i : Instr) : List Part := transferParts i ++ outsideParts i ++ controlParts i

theorem changedHalves_of_not_traps {i : Instr} {s : State} (h : traps i s = false) : changedHalves i s = ownHalves i s := by
  unfold changedHalves changedWords changedBytes ownHalves ownWords
  rw [h]
  rfl

theorem changedBits_of_not_traps {i : Instr} {s : State} (h : traps i s = false) : changedBits i s = flagBits i := by
  unfold changedBits
  rw [h]
  rfl

theorem changedHalves_of_traps {i : Instr} {s : State} (h : traps i s = true) : changedHalves i s = bothHalves [17] := by
  unfold changedHalves changedWords changedBytes
  rw [h]
  rfl

theorem changedBits_of_traps {i : Instr} {s : State} (h : traps i s = true) : changedBits i s = allBits := by
  unfold changedBits
  rw [h]
  rfl

/-- The word registers alone are among the halves. -/
theorem Effect.ofWords {i : Instr} {s t : State} {bits : List FcwBit} {parts : List Part}
    (e : Effect s t (bothHalves (ownWords i s)) bits parts) : Effect s t (ownHalves i s) bits parts :=
  e.mono (List.subset_append_left _ _) (List.Subset.refl _) (List.Subset.refl _)

/-! ### The instructions that are not privileged -/

theorem isSystem_of_readsPort {i : Instr} (h : readsPort i = true) : isSystem i = true := by
  unfold readsPort at h
  split at h <;> first | rfl | cases h

theorem isSystem_of_writesPort {i : Instr} (h : writesPort i = true) : isSystem i = true := by
  unfold writesPort at h
  split at h <;> first | rfl | cases h

theorem isSystem_of_writesLine {i : Instr} (h : writesLine i = true) : isSystem i = true := by
  unfold writesLine at h
  split at h <;> first | rfl | cases h

/-- Only system instructions reach the outside world (R410, R504). -/
theorem outsideParts_of_user {i : Instr} (h : isSystem i = false) : outsideParts i = [] := by
  have hr : readsPort i = false := Bool.eq_false_iff.2 fun hr => by simp [isSystem_of_readsPort hr] at h
  have hw : writesPort i = false := Bool.eq_false_iff.2 fun hw => by simp [isSystem_of_writesPort hw] at h
  have hl : writesLine i = false := Bool.eq_false_iff.2 fun hl => by simp [isSystem_of_writesLine hl] at h
  simp [outsideParts, hr, hw, hl]

/-- Only system instructions reach the control state (R504). -/
theorem controlParts_of_user {i : Instr} (h : isSystem i = false) : controlParts i = [] := by
  unfold controlParts
  split <;> first | rfl | cases h

theorem ownParts_of_user {i : Instr} (h : isSystem i = false) : ownParts i = transferParts i := by
  rw [ownParts, outsideParts_of_user h, controlParts_of_user h, List.append_nil, List.append_nil]

theorem user_effect {i : Instr} {s t : State} (hsys : isSystem i = false) (hrep : repeats i = false) (htrap : traps i s = false)
    (h : exec i s = .next t) : Effect s t (ownHalves i s) (flagBits i) (transferParts i) := by
  cases i with
  | clr dst =>
    have e := writeRegMem_effect wordEffect (finish_next.1 h)
    cases dst <;> exact e
  | clrb dst =>
    have e := writeRegMem_effect byteEffect (finish_next.1 h)
    cases dst <;> exact e
  | ex _ src =>
    have e := exchange_effect wordEffect (finish_next.1 h)
    cases src <;> exact e
  | exb _ src =>
    have e := exchange_effect byteEffect (finish_next.1 h)
    cases src <;> exact e
  | ld => exact loadReg_effect wordEffect (finish_next.1 h)
  | ldb => exact loadReg_effect byteEffect (finish_next.1 h)
  | ldl => exact loadReg_effect longEffect (finish_next.1 h)
  | ldbk => exact byteEffect.set_ok (finish_next.1 h)
  | ldStore => exact storeReg_effect wordEffect (finish_next.1 h)
  | ldbStore => exact storeReg_effect byteEffect (finish_next.1 h)
  | ldlStore => exact storeReg_effect longEffect (finish_next.1 h)
  | ldStoreImm => exact storeImm_effect wordEffect (finish_next.1 h)
  | ldbStoreImm => exact storeImm_effect byteEffect (finish_next.1 h)
  | lda => exact (execLda_effect h).ofWords
  | ldar => exact (putAddr_effect (finish_next.1 h)).ofWords
  | ldk | extsb => exact wordEffect.set_ok (finish_next.1 h)
  | ldmLoad => exact (execLdmLoad_effect h).ofWords
  | ldmStore => exact execLdmStore_effect h
  | ldr => exact loadRel_effect wordEffect (finish_next.1 h)
  | ldrb => exact loadRel_effect byteEffect (finish_next.1 h)
  | ldrl => exact loadRel_effect longEffect (finish_next.1 h)
  | ldrStore => exact storeRel_effect wordEffect (finish_next.1 h)
  | ldrbStore => exact storeRel_effect byteEffect (finish_next.1 h)
  | ldrlStore => exact storeRel_effect longEffect (finish_next.1 h)
  | pop dst =>
    have e := execPop_effect h
    cases dst <;> exact e
  | popl dst =>
    have e := execPopl_effect h
    cases dst <;> exact e
  | push => exact execPush_effect h
  | pushl => exact execPushl_effect h
  | pushImm => exact pushWord_effect (finish_next.1 h)
  | adc =>
    change execAdc _ _ _ = _ at h
    exact aluReg_effect wordEffect Fcw.arith_update (finish_next.1 h)
  | adcb =>
    change execAdcb _ _ _ = _ at h
    exact aluReg_effect byteEffect Fcw.arithAddByte_update (finish_next.1 h)
  | sbc =>
    change execSbc _ _ _ = _ at h
    exact aluReg_effect wordEffect Fcw.arith_update (finish_next.1 h)
  | sbcb =>
    change execSbcb _ _ _ = _ at h
    exact aluReg_effect byteEffect Fcw.arithSubByte_update (finish_next.1 h)
  | add | sub => exact aluReg_effect wordEffect Fcw.arith_update (finish_next.1 h)
  | addb => exact aluReg_effect byteEffect Fcw.arithAddByte_update (finish_next.1 h)
  | subb => exact aluReg_effect byteEffect Fcw.arithSubByte_update (finish_next.1 h)
  | addl | subl => exact aluReg_effect longEffect Fcw.arith_update (finish_next.1 h)
  | cp | cpb | cpl => exact compareReg_effect (finish_next.1 h)
  | cpMemImm | cpbMemImm => exact compareMem_effect (finish_next.1 h)
  | dab => exact execDab_effect h
  | dec dst | inc dst =>
    have e := aluRegMem_effect wordEffect Fcw.step_update (finish_next.1 h)
    cases dst <;> exact e
  | decb dst | incb dst =>
    have e := aluRegMem_effect byteEffect Fcw.step_update (finish_next.1 h)
    cases dst <;> exact e
  | div => exact execDiv_effect h
  | divl => exact execDivl_effect h
  | exts => exact execExts_effect h
  | extsl => exact execExtsl_effect h
  | mult => exact execMult_effect h
  | multl => exact execMultl_effect h
  | neg dst =>
    have e := aluRegMem_effect wordEffect Fcw.arith_update (finish_next.1 h)
    cases dst <;> exact e
  | negb dst =>
    have e := aluRegMem_effect byteEffect Fcw.arith_update (finish_next.1 h)
    cases dst <;> exact e
  | and | or | xor => exact logicReg_effect wordEffect Fcw.logic_update_word (finish_next.1 h)
  | andb | orb | xorb => exact logicReg_effect byteEffect Fcw.logic_update_byte (finish_next.1 h)
  | com dst =>
    have e := complement_effect wordEffect Fcw.logic_update_word (finish_next.1 h)
    cases dst <;> exact e
  | comb dst =>
    have e := complement_effect byteEffect Fcw.logic_update_byte (finish_next.1 h)
    cases dst <;> exact e
  | tcc => exact testCond_effect wordEffect (finish_next.1 h)
  | tccb => exact testCond_effect byteEffect (finish_next.1 h)
  | test => exact testOp_effect Fcw.logic_update_word (finish_next.1 h)
  | testb => exact testOp_effect Fcw.logic_update_byte (finish_next.1 h)
  | testl => exact testOp_effect Fcw.logic_update_long (finish_next.1 h)
  | call => exact execCall_effect h
  | calr => exact execCalr_effect h
  | djnz => exact decrementJump_effect wordEffect (finish_next.1 h)
  | dbjnz => exact decrementJump_effect byteEffect (finish_next.1 h)
  | jp => exact execJp_effect h
  | jr => exact execJr_effect h
  | ret => exact execRet_effect h
  | sc => cases htrap
  | bitDyn =>
    change execBitDyn _ _ _ = _ at h
    exact testBit_effect (finish_next.1 h)
  | bitbDyn =>
    change execBitbDyn _ _ _ = _ at h
    exact testBit_effect (finish_next.1 h)
  | bit | bitb => exact testBit_effect (finish_next.1 h)
  | res dst | set dst =>
    have e := modifyRegMem_effect wordEffect (finish_next.1 h)
    cases dst <;> exact e
  | resb dst | setb dst =>
    have e := modifyRegMem_effect byteEffect (finish_next.1 h)
    cases dst <;> exact e
  | resDyn =>
    change execResDyn _ _ _ = _ at h
    exact modifyRegMem_effect wordEffect (finish_next.1 h)
  | setDyn =>
    change execSetDyn _ _ _ = _ at h
    exact modifyRegMem_effect wordEffect (finish_next.1 h)
  | resbDyn =>
    change execResbDyn _ _ _ = _ at h
    exact modifyRegMem_effect byteEffect (finish_next.1 h)
  | setbDyn =>
    change execSetbDyn _ _ _ = _ at h
    exact modifyRegMem_effect byteEffect (finish_next.1 h)
  | tset dst =>
    have e := testAndSet_effect wordEffect (finish_next.1 h)
    cases dst <;> exact e
  | tsetb dst =>
    have e := testAndSet_effect byteEffect (finish_next.1 h)
    cases dst <;> exact e
  | rl | rlc | rr | rrc => exact rotateReg_effect wordEffect (finish_next.1 h)
  | rlb | rlcb | rrb | rrcb => exact rotateReg_effect byteEffect (finish_next.1 h)
  | rldb | rrdb => exact rotateDigit_effect (finish_next.1 h)
  | sla | sll | sra | srl | sda | sdl => exact shiftReg_effect wordEffect (finish_next.1 h)
  | slab | sllb | srab | srlb | sdab | sdlb => exact shiftReg_effect byteEffect (finish_next.1 h)
  | slal | slll | sral | srll | sdal | sdll => exact shiftReg_effect longEffect (finish_next.1 h)
  | cpd | cpi | cpdb | cpib => exact once_effect compareString_effect (finish_next.1 h)
  | cpsd | cpsi | cpsdb | cpsib => exact once_effect compareStrings_effect (finish_next.1 h)
  | ldd | ldi => exact loadStep_effect wordEffect (finish_next.1 h)
  | lddb | ldib => exact loadStep_effect byteEffect (finish_next.1 h)
  | trdb | trib => exact translateStep_effect (finish_next.1 h)
  | trtdb | trtib => exact testStep_effect (finish_next.1 h)
  | comflg | resflg | setflg =>
    cases h
    exact (Effect.refl s).setFlags (Fcw.selected_update _ _ _)
  | nop =>
    cases h
    exact Effect.refl s
  | ldctlbRead => exact byteEffect.set_ok (finish_next.1 h)
  | ldctlbWrite =>
    obtain ⟨_, rfl⟩ := loadFlags_ok.1 (finish_next.1 h)
    exact (Effect.refl s).setFlags (Fcw.withFlags_update _ _)
  | cpdr | cpdrb | cpir | cpirb | cpsdr | cpsdrb | cpsir | cpsirb | lddr | lddrb | ldir | ldirb | trdrb | trirb | trtdrb | trtirb =>
    cases hrep
  | _ => cases hsys

/-! ### The repeating forms -/

/-- In system mode a system instruction has its own meaning (R505). -/
theorem body_of_system {i : Instr} {s t : State} {body : State → Except Refusal State} (hs : s.fcw.sn = true)
    (h : finish (requireSystem i s body) = .next t) : body s = .ok t := by
  rw [finish_next, requireSystem, if_pos hs] at h
  exact h

/-- A system instruction that does not trap runs in system mode. -/
theorem systemMode_of_not_traps {i : Instr} {s : State} (hsys : isSystem i = true) (htrap : traps i s = false) : s.fcw.sn = true := by
  unfold traps at htrap
  split at htrap
  · cases htrap
  · simpa [hsys] using htrap

/-- Every repeating form is an iteration of its single form (R371). -/
theorem repeating_iterates {i : Instr} {s t : State} (hrep : repeats i = true) (htrap : traps i s = false) (h : exec i s = .next t) :
    Iterates s t (ownHalves i s) (flagBits i) (outsideParts i) := by
  cases i with
  | cpdr | cpdrb | cpir | cpirb => exact untilFound_iterates compareString_effect (finish_next.1 h)
  | cpsdr | cpsdrb | cpsir | cpsirb => exact untilFound_iterates compareStrings_effect (finish_next.1 h)
  | lddr | ldir => exact untilZero_iterates (loadStep_effect wordEffect) (finish_next.1 h)
  | lddrb | ldirb => exact untilZero_iterates (loadStep_effect byteEffect) (finish_next.1 h)
  | trdrb | trirb => exact untilZero_iterates translateStep_effect (finish_next.1 h)
  | trtdrb | trtirb => exact untilNonzero_iterates testStep_effect (finish_next.1 h)
  | indr | inir | sindr | sinir =>
    have hs := systemMode_of_not_traps rfl htrap
    exact untilZero_iterates (inputStep_effect wordEffect) (body_of_system hs h)
  | indrb | inirb | sindrb | sinirb =>
    have hs := systemMode_of_not_traps rfl htrap
    exact untilZero_iterates (inputStep_effect byteEffect) (body_of_system hs h)
  | otdr | otir | sotdr | sotir | otdrb | otirb | sotdrb | sotirb =>
    have hs := systemMode_of_not_traps rfl htrap
    exact untilZero_iterates outputStep_effect (body_of_system hs h)
  | _ => cases hrep

/-! ### The system instructions -/

theorem system_effect {i : Instr} {s t : State} (hsys : isSystem i = true) (hrep : repeats i = false) (htrap : traps i s = false)
    (h : exec i s = .next t) : Effect s t (ownHalves i s) (flagBits i) (ownParts i) := by
  have hs := systemMode_of_not_traps hsys htrap
  cases i with
  | iret => exact returnFromTrap_effect (body_of_system hs h)
  | di | ei =>
    cases body_of_system hs h
    exact (Effect.refl s).setFlags (Fcw.enables_update _ _ _ _)
  | halt =>
    cases body_of_system hs h
    exact Effect.setHalted s true
  | ldctlRead d c =>
    obtain ⟨_, _, hset⟩ := bind_ok.1 (body_of_system hs h)
    exact (Effect.ctlRead s c).thenSet wordEffect hset
  | ldctlWrite c r =>
    obtain ⟨_, hctl, hwrite⟩ := bind_ok.1 (body_of_system hs h)
    cases c with
    | fcw =>
      obtain ⟨_, rfl⟩ := loadFcw_ok.1 hwrite
      exact Effect.loadFcw s _
    | refresh =>
      cases hwrite
      exact Effect.setRefresh s _
    | psapseg =>
      cases hwrite
      exact Effect.setPsapSeg s _ (by simpa using needCtl_ok hctl)
    | psapoff =>
      cases hwrite
      exact Effect.setPsapOff s _
    | nspseg =>
      cases hwrite
      exact (Change.setGr s 14 _).effect
    | nspoff =>
      cases hwrite
      exact (Change.setGr s 15 _).effect
  | ldps =>
    obtain ⟨_, _, hload⟩ := bind_ok.1 (body_of_system hs h)
    exact loadStatus_effect hload
  | mbit =>
    cases body_of_system hs h
    exact (Effect.drawn s).setFlags (Fcw.s_update _ _)
  | mreq d =>
    cases body_of_system hs h
    exact execMreq_effect d s
  | mres | mset =>
    cases body_of_system hs h
    exact Effect.setMultiMicro s _
  | inReg | inPort | sin => exact inputReg_effect wordEffect (body_of_system hs h)
  | inbReg | inbPort | sinb => exact inputReg_effect byteEffect (body_of_system hs h)
  | outReg | outPort | sout | outbReg | outbPort | soutb => exact outputReg_effect (body_of_system hs h)
  | ind | ini | sind | sini => exact inputStep_effect wordEffect (body_of_system hs h)
  | indb | inib | sindb | sinib => exact inputStep_effect byteEffect (body_of_system hs h)
  | outd | outi | soutd | souti | outdb | outib | soutdb | soutib => exact outputStep_effect (body_of_system hs h)
  | indr | indrb | inir | inirb | sindr | sindrb | sinir | sinirb | otdr | otdrb | otir | otirb | sotdr | sotdrb | sotir | sotirb =>
    cases hrep
  | _ => cases hsys

/-! ### Every instruction -/

/-- A system instruction in normal mode is the privileged-instruction trap (R505). -/
theorem exec_of_normal_mode {i : Instr} {s : State} (hsys : isSystem i = true) (hs : s.fcw.sn = false) :
    exec i s = finish (s.trapEntry .privilegedInstruction (firstWord i) (s.privilegedPc (lengthOf i))) := by
  have htrap (body : State → Except Refusal State) :
      requireSystem i s body = s.trapEntry .privilegedInstruction (firstWord i) (s.privilegedPc (lengthOf i)) := by
    rw [requireSystem, if_neg (Bool.eq_false_iff.1 hs)]
  cases i <;> first | exact absurd hsys Bool.false_ne_true | exact congrArg finish (htrap _)

/-- An instruction that traps enters the handler of its event (R505, R506). -/
theorem trapEntry_of_traps {i : Instr} {s t : State} (htrap : traps i s = true) (h : exec i s = .next t) :
    ∃ kind ident off, s.trapEntry kind ident off = .ok t := by
  unfold traps at htrap
  split at htrap
  · exact ⟨_, _, _, finish_next.1 h⟩
  · simp only [Bool.and_eq_true, Bool.not_eq_true'] at htrap
    rw [exec_of_normal_mode htrap.1 htrap.2, finish_next] at h
    exact ⟨_, _, _, h⟩

/-- The effect of every instruction that does not trap. -/
theorem own_effect {i : Instr} {s t : State} (htrap : traps i s = false) (h : exec i s = .next t) :
    Effect s t (ownHalves i s) (flagBits i) (ownParts i) := by
  cases hrep : repeats i
  · cases hsys : isSystem i
    · rw [ownParts_of_user hsys]
      exact user_effect hsys hrep htrap h
    · exact system_effect hsys hrep htrap h
  · refine (repeating_iterates hrep htrap h).effect.mono (List.Subset.refl _) (List.Subset.refl _) ?_
    refine List.cons_subset.2 ⟨?_, List.cons_subset.2 ⟨?_, fun p hp => ?_⟩⟩
    · simp [ownParts, transferParts, changesPcOff, hrep]
    · simp [ownParts, transferParts, hrep]
    · simp [ownParts, hp]

end Sys2Proof.Machine
end

section
/-! SUPPORT. The frames of the instructions and the invariant of the machine, read off the effect of every instruction. -/

namespace Sys2Proof.Machine

/-! ### Every instruction -/

/-- The parts of the state that an instruction may change; a trap enters its handler (spec/60_exceptions.md R515). -/
def changedParts (i : Instr) (s : State) : List Part := if traps i s then [.halted, .pcSeg, .pcOff] else ownParts i

/-- The effect of every instruction, trap or not. -/
theorem exec_effect {i : Instr} {s t : State} (h : exec i s = .next t) :
    Effect s t (changedHalves i s) (changedBits i s) (changedParts i s) := by
  unfold changedParts
  cases htrap : traps i s
  · rw [changedHalves_of_not_traps htrap, changedBits_of_not_traps htrap]
    exact own_effect htrap h
  · rw [changedHalves_of_traps htrap, changedBits_of_traps htrap]
    obtain ⟨_, _, _, hentry⟩ := trapEntry_of_traps htrap h
    exact trapEntry_effect hentry

/-! ### Registers and the FCW -/

theorem mem_changedRegs_of_half {i : Instr} {s : State} {j : Fin 18} {low : Bool} (h : (j, low) ∈ changedHalves i s) :
    j ∈ changedRegs i s := by
  rcases List.mem_append.1 h with hword | hbyte
  · exact List.mem_append_left _ (mem_bothHalves.1 hword)
  · obtain ⟨c, hc, heq⟩ := List.mem_map.1 hbyte
    exact List.mem_append_right _ (List.mem_map.2 ⟨c, hc, congrArg Prod.fst heq⟩)

/-- Settles O12: the halves are those of the effect, and a register is its two halves. -/
theorem registerFrame : Obligations.RegisterFrame := by
  constructor
  · intro i s t h j hj
    exact State.gr_eq_of_halves fun low => (exec_effect h).half j low fun hmem => hj (mem_changedRegs_of_half hmem)
  · intro i s t h j low hj
    exact (exec_effect h).half j low hj

/-- Settles O14. -/
theorem fcwFrame : Obligations.FcwFrame := by
  intro i s t h b hb
  exact (exec_effect h).fcw b hb

/-! ### The rest of the state -/

theorem mem_controlParts {i : Instr} {p : Part} : p ∈ controlParts i ↔
    (p = .halted ∧ i = .halt) ∨ (p = .psapSeg ∧ ∃ r, i = .ldctlWrite .psapseg r) ∨ (p = .psapOff ∧ ∃ r, i = .ldctlWrite .psapoff r) ∨
      (p = .refresh ∧ ∃ r, i = .ldctlWrite .refresh r) := by
  unfold controlParts
  split <;> simp_all

theorem mem_changedParts {i : Instr} {s : State} {p : Part} : p ∈ changedParts i s ↔
    (traps i s = true ∧ (p = .halted ∨ p = .pcSeg ∨ p = .pcOff)) ∨
      (traps i s = false ∧ (p ∈ transferParts i ∨ p ∈ outsideParts i ∨ p ∈ controlParts i)) := by
  unfold changedParts
  cases traps i s <;> simp [ownParts]

section
variable {i : Instr} {s : State}

/-! When each part may change. -/

theorem psapSeg_mem : .psapSeg ∈ changedParts i s ↔ traps i s = false ∧ ∃ r, i = .ldctlWrite .psapseg r := by
  simp [mem_changedParts, transferParts, outsideParts, mem_controlParts]

theorem psapOff_mem : .psapOff ∈ changedParts i s ↔ traps i s = false ∧ ∃ r, i = .ldctlWrite .psapoff r := by
  simp [mem_changedParts, transferParts, outsideParts, mem_controlParts]

theorem refresh_mem : .refresh ∈ changedParts i s ↔ traps i s = false ∧ ∃ r, i = .ldctlWrite .refresh r := by
  simp [mem_changedParts, transferParts, outsideParts, mem_controlParts]

theorem halted_mem : .halted ∈ changedParts i s ↔ traps i s = true ∨ (traps i s = false ∧ i = .halt) := by
  simp [mem_changedParts, transferParts, outsideParts, mem_controlParts]

theorem events_mem : .events ∈ changedParts i s ↔
    traps i s = false ∧ (readsPort i = true ∨ writesPort i = true ∨ writesLine i = true) := by
  simp [mem_changedParts, transferParts, outsideParts, mem_controlParts, or_assoc]

theorem portAnswers_mem : .portAnswers ∈ changedParts i s ↔ traps i s = false ∧ readsPort i = true := by
  simp [mem_changedParts, transferParts, outsideParts, mem_controlParts]

theorem line_mem : .line ∈ changedParts i s ↔ traps i s = false ∧ writesLine i = true := by
  simp [mem_changedParts, transferParts, outsideParts, mem_controlParts]

theorem pcSeg_mem : .pcSeg ∈ changedParts i s ↔ traps i s = true ∨ (traps i s = false ∧ changesPcSeg i = true) := by
  simp [mem_changedParts, transferParts, outsideParts, mem_controlParts]

theorem pcOff_mem : .pcOff ∈ changedParts i s ↔ traps i s = true ∨ (traps i s = false ∧ changesPcOff i = true) := by
  simp [mem_changedParts, transferParts, outsideParts, mem_controlParts]

theorem repeating_mem : .repeating ∈ changedParts i s ↔ traps i s = false ∧ repeats i = true := by
  simp [mem_changedParts, transferParts, outsideParts, mem_controlParts]

end

/-- Settles O15: a part outside `changedParts` is unchanged; a trap ends a halt; a repeating form marks that it went back. -/
theorem specialStateFrame : Obligations.SpecialStateFrame := by
  intro i s t h
  have e := exec_effect h
  refine ⟨e.cfg, e.requests, fun hn => e.psapSeg ?_, fun hn => e.psapOff ?_, fun hn => e.refresh ?_, fun htrap => ?_,
    fun htrap hn => e.halted ?_, fun hn => e.events ?_, e.eventsAdded, fun hn => e.portAnswers ?_, fun hn => e.line ?_,
    fun htrap hn => e.pcSeg ?_, fun htrap hn => e.pcOff ?_, fun hn => e.repeating ?_, fun htrap hrep => ?_⟩
  case refine_4 =>
    obtain ⟨_, _, _, hentry⟩ := trapEntry_of_traps htrap h
    exact trapEntry_halted hentry
  case refine_12 =>
    exact (repeating_iterates hrep htrap h).mark (by simp [outsideParts]) (by simp [outsideParts])
  all_goals
    simp only [psapSeg_mem, psapOff_mem, refresh_mem, halted_mem, events_mem, portAnswers_mem, line_mem, pcSeg_mem, pcOff_mem, repeating_mem]
    grind

/-! ### Normal mode -/

theorem isSystem_of_normal_mode {i : Instr} {s : State} (hs : s.fcw.sn = false) (htrap : traps i s = false) : isSystem i = false := by
  unfold traps at htrap
  split at htrap
  · cases htrap
  · simpa [hs] using htrap

/-- The field is a flag and no control bit (spec/10_state.md R45). -/
def FcwBit.isFlag : FcwBit → Bool
  | .c | .z | .s | .pv | .da | .h => true
  | .seg | .sn | .se | .vie | .nvie => false

theorem selected_isFlag : ∀ c z s pv : Bool,
    ((if c then [FcwBit.c] else []) ++ (if z then [FcwBit.z] else []) ++ (if s then [FcwBit.s] else []) ++
      (if pv then [FcwBit.pv] else [])).all FcwBit.isFlag = true := by
  decide

/-- The rule of an instruction that is not privileged names flags only (spec/10_state.md R59). -/
theorem flagBits_isFlag {i : Instr} (hsys : isSystem i = false) : (flagBits i).all FcwBit.isFlag = true := by
  cases i with
  | comflg f | resflg f | setflg f => exact selected_isFlag (f.getLsbD 3) (f.getLsbD 2) (f.getLsbD 1) (f.getLsbD 0)
  | _ => first | exact absurd hsys.symm Bool.false_ne_true | rfl

theorem not_mem_flagBits {i : Instr} (hsys : isSystem i = false) {b : FcwBit} (hb : b.isFlag = false) : b ∉ flagBits i := fun hmem => by
  rw [List.all_eq_true.1 (flagBits_isFlag hsys) b hmem] at hb
  cases hb

/-- In normal mode no register code names the system-mode registers (spec/10_state.md R30). -/
theorem phys_of_normal_mode {s : State} (hs : s.fcw.sn = false) (n : RegCode) : (s.phys n : Nat) < 16 := by
  simp only [State.phys, hs, Bool.false_eq_true, false_and, and_false, if_false]
  exact n.isLt

theorem ownWords_of_user {i : Instr} (hsys : isSystem i = false) (s : State) : ownWords i s = (destCodes s i).map s.phys := by
  unfold ownWords
  split <;> first | rfl | cases hsys

theorem system_register_kept {i : Instr} {s : State} (hs : s.fcw.sn = false) (hsys : isSystem i = false) {j : Fin 18} (hj : 16 ≤ (j : Nat))
    (low : Bool) : (j, low) ∉ ownHalves i s := by
  intro hmem
  have hphys : ∃ n, s.phys n = j := by
    rcases List.mem_append.1 hmem with hword | hbyte
    · rw [mem_bothHalves, ownWords_of_user hsys] at hword
      obtain ⟨n, _, hn⟩ := List.mem_map.1 hword
      exact ⟨n, hn⟩
    · obtain ⟨c, _, hc⟩ := List.mem_map.1 hbyte
      exact ⟨byteHome c, congrArg Prod.fst hc⟩
  obtain ⟨n, rfl⟩ := hphys
  exact absurd (phys_of_normal_mode hs n) (Nat.not_lt.2 hj)

/-- Settles O16: an instruction that does not trap in normal mode is not privileged, so the tables give it none of the control state. -/
theorem normalModeKeepsControl : Obligations.NormalModeKeepsControl := by
  intro i s t hs htrap h
  have hsys := isSystem_of_normal_mode hs htrap
  have e := own_effect htrap h
  rw [ownParts_of_user hsys] at e
  have bit (b : FcwBit) (hb : b.isFlag = false) : t.fcw.bit b = s.fcw.bit b := e.fcw b (not_mem_flagBits hsys hb)
  have register (j : Fin 18) (hj : 16 ≤ (j : Nat)) : t.gr[j] = s.gr[j] :=
    State.gr_eq_of_halves fun low => e.half j low (system_register_kept hs hsys hj low)
  exact ⟨(bit .sn rfl).trans hs, bit .seg rfl, bit .se rfl, bit .vie rfl, bit .nvie rfl, register 16 (by decide), register 17 (by decide),
    e.psapSeg (by simp [transferParts]), e.psapOff (by simp [transferParts]), e.refresh (by simp [transferParts]),
    e.halted (by simp [transferParts]), e.line (by simp [transferParts]), e.events (by simp [transferParts])⟩

/-! ### System instructions in normal mode -/

theorem lengthOf_pos_of_system {i : Instr} (hsys : isSystem i = true) : 0 < lengthOf i := by
  cases i <;> first | exact absurd hsys Bool.false_ne_true | exact Nat.zero_lt_succ _

/-- The PC that the trap saves, from the PC past the instruction (spec/60_exceptions.md R517). -/
theorem privilegedPc_eq (s : State) {n : Nat} (h : 0 < n) : s.privilegedPc n =
    match s.cfg.privTrapPc with
    | .firstWordPlus2 => s.pcOff - 2 * BitVec.ofNat 16 n + 2
    | .nextInstruction => s.pcOff := by
  unfold State.privilegedPc
  cases s.cfg.privTrapPc
  · obtain ⟨m, rfl⟩ := Nat.exists_eq_succ_of_ne_zero (Nat.pos_iff_ne_zero.1 h)
    simp only [Nat.succ_eq_add_one, Nat.add_sub_cancel, BitVec.ofNat_add, BitVec.mul_add]
    bv_omega
  · rfl

/-- Settles O18: the trap is taken before the body, and trap entry leaves the handler's state. -/
theorem systemInstructionsTrapInNormalMode : Obligations.SystemInstructionsTrapInNormalMode := by
  intro i s hsys hs hready
  obtain ⟨t, hentry, hentered, hrequests⟩ := trapEntry_entered (s.privilegedPc (lengthOf i)) hready
  refine ⟨t, (exec_of_normal_mode hsys hs).trans (finish_next.2 hentry), ?_, hrequests⟩
  rw [privilegedPc_eq s (lengthOf_pos_of_system hsys)] at hentered
  exact hentered

/-! ### The invariant -/

theorem advanced_inv {s : State} (n : Nat) (h : s.inv = true) : (s.advanced n).inv = true := by
  simp only [State.inv, Bool.and_eq_true] at h ⊢
  obtain ⟨⟨hpc, hfits⟩, hmem⟩ := h
  exact ⟨⟨(State.pcEven_iff _).2 (even_add_double (s.pcEven_iff.1 hpc)), hfits⟩, hmem⟩

/-- What a fetch gives: the instruction with the PC past it, or what `fetchFailed` gives. -/
theorem fetch_ok {s : State} {f : Fetched} (h : s.fetch = .ok f) :
    (∃ i, f = .instr i (s.advanced (lengthOf i))) ∨ ∃ e, s.fetchFailed e = .ok f := by
  unfold State.fetch at h
  split at h
  · cases h
  · split at h
    · split at h
      · cases h
      · cases h
        exact .inl ⟨_, rfl⟩
    · exact .inr ⟨_, h⟩

theorem stepInstr_inv {s t : State} (hinv : s.inv = true) (h : stepInstr s = .next t) : t.inv = true := by
  unfold stepInstr at h
  split at h
  · cases h
    exact hinv
  · split at h
    · next i u hfetch =>
      rcases fetch_ok hfetch with ⟨_, heq⟩ | ⟨_, hfailed⟩
      · cases heq
        exact (exec_effect h).inv (advanced_inv _ hinv)
      · obtain ⟨_, _, _, _, _, heq⟩ := fetchFailed_ok.1 hfailed
        cases heq
    · next u hfetch =>
      cases h
      rcases fetch_ok hfetch with ⟨_, heq⟩ | ⟨_, hfailed⟩
      · cases heq
      · obtain ⟨_, _, _, _, hentry, heq⟩ := fetchFailed_ok.1 hfailed
        cases heq
        exact (trapEntry_effect hentry).inv (advanced_inv _ hinv)
    · cases h

theorem takeInterrupt_inv {s t : State} {kind : TrapKind} {ident : Word} (hinv : s.inv = true) (h : s.takeInterrupt kind ident = .ok t) :
    t.inv = true := by
  obtain ⟨u, hentry, heq⟩ := bind_ok.1 h
  cases heq
  exact (trapEntry_effect hentry).inv hinv

/-- Settles O9: an interrupt, a fetch and every instruction keep the invariant. -/
theorem stepKeepsInvariant : Obligations.StepKeepsInvariant := by
  intro s t hinv h
  unfold step at h
  split at h
  · exact takeInterrupt_inv (s := { s with requests := s.requests.tail }) hinv (finish_next.1 h)
  · exact stepInstr_inv (s := { s with requests := s.requests.tail }) hinv h

end Sys2Proof.Machine
end

section
/-! SUPPORT. Bytes, words and long words in memory (spec/20_memory.md R80 to R92): what a store of each width reads back. -/

namespace Sys2Proof.Machine

/-! ### Words -/

theorem State.hiByte_wordAt (s : State) (a : Address) : hiByte (s.wordAt a) = s.readByte a := hiByte_append _ _

theorem State.loByte_wordAt (s : State) (a : Address) : loByte (s.wordAt a) = s.readByte (a.plus 1) := loByte_append _ _

/-- A word stored is two bytes, the high one first (R86, R88). -/
theorem State.bytes_putWord (s : State) (a : Address) (v : Word) (hwf : s.mem.wf = true) :
    (s.putWord a v).readByte a = hiByte v ∧ (s.putWord a v).readByte (a.plus 1) = loByte v := by
  rw [← State.hiByte_wordAt, ← State.loByte_wordAt, s.wordAt_putWord_same a v hwf]
  exact ⟨rfl, rfl⟩

/-! ### Long words -/

/-- A long word stored is two words, the high one first, which the store of the second leaves alone (R87, R92). -/
theorem State.words_putLong (s : State) (a : Address) (v : Long) (hwf : s.mem.wf = true) :
    (s.putLong a v).wordAt a = hiWord v ∧ (s.putLong a v).wordAt (a.plus 2) = loWord v := by
  refine ⟨?_, State.wordAt_putWord_same _ _ _ (s.wf_putWord a _ hwf)⟩
  have hapart := (s.putWord a (hiWord v)).wordAt_putWord_apart a 2 0 (loWord v) (by decide) (by decide) (by decide)
  rw [show a.plus 0 = a from a.plus_zero] at hapart
  exact hapart.trans (s.wordAt_putWord_same a _ hwf)

theorem State.longAt_putLong (s : State) (a : Address) (v : Long) (hwf : s.mem.wf = true) : (s.putLong a v).longAt a = v := by
  obtain ⟨hhi, hlo⟩ := s.words_putLong a v hwf
  rw [State.longAt, hhi, hlo, hiWord_loWord]

/-- The bytes of a long word stored, the most significant first. -/
theorem State.bytes_putLong (s : State) (a : Address) (v : Long) (hwf : s.mem.wf = true) :
    (s.putLong a v).readByte a = hiByte (hiWord v) ∧ (s.putLong a v).readByte (a.plus 1) = loByte (hiWord v) ∧
      (s.putLong a v).readByte (a.plus 2) = hiByte (loWord v) ∧ (s.putLong a v).readByte (a.plus 3) = loByte (loWord v) := by
  obtain ⟨hhi, hlo⟩ := s.words_putLong a v hwf
  have hthree : a.plus 3 = (a.plus 2).plus 1 := by simp
  rw [hthree, ← State.hiByte_wordAt, ← State.loByte_wordAt, ← State.hiByte_wordAt, ← State.loByte_wordAt, hhi, hlo]
  exact ⟨rfl, rfl, rfl, rfl⟩

theorem bytes_of_long (v : Long) :
    hiByte (hiWord v) = v.extractLsb' 24 8 ∧ loByte (hiWord v) = v.extractLsb' 16 8 ∧
      hiByte (loWord v) = v.extractLsb' 8 8 ∧ loByte (loWord v) = v.extractLsb' 0 8 :=
  ⟨extractLsb'_of_extractLsb' v 16 16 8 8 (by decide), extractLsb'_of_extractLsb' v 16 16 0 8 (by decide),
    extractLsb'_of_extractLsb' v 0 16 8 8 (by decide), extractLsb'_of_extractLsb' v 0 16 0 8 (by decide)⟩

/-! ### Alignment -/

theorem Address.isEven_iff (a : Address) : a.isEven = true ↔ a.off.getLsbD 0 = false := by
  rw [Address.isEven, Bool.not_eq_true']

theorem needEven_of_odd {a : Address} (h : a.isEven = false) : needEven a = .error .misaligned :=
  if_pos ((Bool.not_eq_false' _).mp h)

/-! ### Byte addresses -/

/-- The 23-bit byte address: the segment number above the offset (R80, R81). -/
theorem State.key_8001 (s : State) (a : Address) (hv : s.cfg.variant = .amz8001) : s.key a = a.seg.toNat * 2 ^ 16 + a.off.toNat := by
  unfold State.key
  rw [hv]
  simp only [BitVec.toNat_append]
  rw [← Nat.shiftLeft_add_eq_or_of_lt a.off.isLt, Nat.shiftLeft_eq]

theorem State.key_8002 (s : State) (a : Address) (hv : s.cfg.variant = .amz8002) : s.key a = a.off.toNat := by
  unfold State.key
  rw [hv]

/-! ### O23 -/

/-- Settles O23: the bytes of a store are read off the words that it reads back, and every other byte off its change. -/
theorem memoryIsBigEndian : Obligations.MemoryIsBigEndian := by
  refine ⟨fun s a v hwf heven => ?_, fun s a v hwf heven => ?_, State.readByte_writeByte_same, fun s a v w hodd => ?_,
    State.key_8001, State.key_8002, fun s a => ⟨rfl, rfl, fun heven => ?_⟩⟩
  case refine_1 =>
    have heven := a.isEven_iff.1 heven
    obtain ⟨h0, h1⟩ := s.bytes_putWord a v hwf
    exact ⟨s.putWord a v, writeWord_ok.2 ⟨heven, rfl⟩, h0, h1, readWord_ok.2 ⟨heven, s.wordAt_putWord_same a v hwf⟩,
      fun b hb0 hb1 => s.readByte_putWord_ne a b v hb0 hb1⟩
  case refine_2 =>
    have heven := a.isEven_iff.1 heven
    obtain ⟨h0, h1, h2, h3⟩ := s.bytes_putLong a v hwf
    obtain ⟨e0, e1, e2, e3⟩ := bytes_of_long v
    refine ⟨s.putLong a v, writeLong_ok.2 ⟨heven, rfl⟩, h0.trans e0, h1.trans e1, h2.trans e2, h3.trans e3,
      readLong_ok.2 ⟨heven, s.longAt_putLong a v hwf⟩, fun b hb => (Change.putLong s a v).readByte ?_⟩
    rw [← keysFrom_four]
    simpa [State.keysFrom, Address.plus, eq_comm] using hb
  case refine_3 =>
    simp only [State.readWord, State.readLong, State.writeWord, State.writeLong, needEven_of_odd hodd, bind_of_error, and_self]
  case refine_4 =>
    have heven := a.isEven_iff.1 heven
    exact ⟨readWord_ok.2 ⟨heven, rfl⟩, readLong_ok.2 ⟨heven, rfl⟩⟩

end Sys2Proof.Machine
end

section
/-! SUPPORT. `Stores s t keys`: what an operation that takes s to t may have stored (spec/20_memory.md R103). Like `Effect`, it is put
together for an instruction from what the shared operations store. -/

namespace Sys2Proof.Machine

/-! ### Stores -/

/-- The part is the same, of memory only the bytes at `keys` may differ, and the note of stores gains exactly these. -/
structure Stores (s t : State) (keys : List Nat) : Prop where
  cfg : t.cfg = s.cfg
  read : ∀ k, k ∉ keys → t.mem.read k = s.mem.read k
  noted : ∀ k, k ∈ t.stores ↔ k ∈ s.stores ∨ k ∈ keys

theorem Change.toStores {s t : State} {regs : List (Fin 18)} {keys : List Nat} (c : Change s t regs keys) : Stores s t keys :=
  ⟨c.cfg, c.mem, c.stores⟩

section
variable {s t u : State} {keys keys' : List Nat}

theorem Stores.refl (s : State) : Stores s s [] := (Change.refl s).toStores

theorem Stores.trans (a : Stores s t keys) (b : Stores t u keys') : Stores s u (keys ++ keys') where
  cfg := b.cfg.trans a.cfg
  read k := kept_trans (a.read k) (b.read k)
  noted k := by rw [b.noted, a.noted, List.mem_append, or_assoc]

/-- An operation that stores nothing comes after. -/
theorem Stores.thenNothing (a : Stores s t keys) (b : Stores t u []) : Stores s u keys := by
  simpa using a.trans b

/-- An update of other fields of the state comes after. -/
theorem Stores.thenUpdate (a : Stores s t keys) (h : (u.cfg, u.mem, u.stores) = (t.cfg, t.mem, t.stores)) : Stores s u keys := by
  simp only [Prod.mk.injEq] at h
  obtain ⟨hcfg, hmem, hstores⟩ := h
  exact ⟨hcfg.trans a.cfg, fun k hk => by rw [hmem, a.read k hk], fun k => by rw [hstores, a.noted]⟩

/-- An update of fields other than the memory and its note. -/
theorem Stores.update (h : (t.cfg, t.mem, t.stores) = (s.cfg, s.mem, s.stores)) : Stores s t [] :=
  (Stores.refl s).thenUpdate h

/-- An update of other fields of the state comes before. -/
theorem Stores.afterUpdate (b : Stores t u keys) (h : (t.cfg, t.mem, t.stores) = (s.cfg, s.mem, s.stores)) : Stores s u keys :=
  (Stores.update h).trans b

theorem Stores.keysFrom (a : Stores s t keys) : t.keysFrom = s.keysFrom := by
  funext
  rw [State.keysFrom, State.keysFrom, State.key_congr s t a.cfg]

end

/-! ### The bytes of a destination -/

/-- The bytes at an address, if there is one and it can be computed. -/
def keysAt (s : State) : Option (Except Refusal Address) × Nat → List Nat
  | (some (.ok a), k) => s.keysFrom a k
  | _ => []

theorem keysAt_ok {s : State} {x : Except Refusal Address} {a : Address} (h : x = .ok a) (k : Nat) :
    keysAt s (some x, k) = s.keysFrom a k := by
  rw [h]
  rfl

theorem keysAt_drawn (s : State) : keysAt s.drawn = keysAt s := rfl

theorem pushAddr_drawn (s : State) (r : RegCode) (k : Word) : pushAddr s.drawn r k = pushAddr s r k := rfl

theorem storedKeys_of_traps {i : Instr} {s : State} (h : traps i s = true) : storedKeys i s = frameKeys s := if_pos h

theorem storedKeys_of_not_traps {i : Instr} {s : State} (h : traps i s = false) : storedKeys i s = keysAt s (storeAddr s i) := by
  unfold storedKeys
  rw [h]
  rfl

/-- The bytes of m and n places are those of m places and of n places after them. -/
theorem keysFrom_add (s : State) (a : Address) (m n : Nat) :
    s.keysFrom a (m + n) = s.keysFrom a m ++ s.keysFrom (a.plus (BitVec.ofNat 16 m)) n := by
  simp [State.keysFrom, List.range_add, Function.comp_def, BitVec.ofNat_add]

end Sys2Proof.Machine
end

section
/-! SUPPORT. What the operations that the instructions share store, in the order of the model's files. -/

namespace Sys2Proof.Machine

section
variable {n size : Nat} {w : Width n} {home : RegCode → List RegCode} {s t : State}

/-! ### Operand widths -/

theorem WidthSpec.set_stores (W : WidthSpec w home size) {r : RegCode} {v : BitVec n} (h : w.set s r v = .ok t) : Stores s t [] :=
  (W.set_ok h).toStores

theorem WidthSpec.store_stores (W : WidthSpec w home size) {a : Address} {v : BitVec n} (h : w.store s a v = .ok t) :
    Stores s t (s.keysFrom a size) :=
  (W.store_ok h).toStores

theorem keysAt_regMemAddr (s : State) (k : Nat) (dst : RegMem) : keysAt s (regMemAddr s dst, k) = regMemKeys s k dst := by
  cases dst with
  | reg => rfl
  | mem m =>
    simp only [regMemKeys, regMemAddr]
    cases s.ea m <;> rfl

theorem writeRegMem_stores (W : WidthSpec w home size) {dst : RegMem} {v : BitVec n} (h : writeRegMem w s dst v = .ok t) :
    Stores s t (keysAt s (regMemAddr s dst, size)) := by
  rw [keysAt_regMemAddr]
  exact (writeRegMem_ok W h).toStores

theorem modifyRegMem_stores (W : WidthSpec w home size) {dst : RegMem} {f : BitVec n → BitVec n} (h : modifyRegMem w s dst f = .ok t) :
    Stores s t (keysAt s (regMemAddr s dst, size)) := by
  obtain ⟨_, _, hwrite⟩ := bind_ok.1 h
  exact writeRegMem_stores W hwrite

/-! ### Arithmetic -/

theorem aluReg_stores (W : WidthSpec w home size) {op : BitVec n → BitVec n → AluOut n} {flags : Fcw → AluOut n → Fcw} {d : RegCode}
    {src : Src n} (h : aluReg w op flags d src s = .ok t) : Stores s t [] := by
  simp only [aluReg, bind_ok, Except.ok.injEq] at h
  obtain ⟨_, _, _, _, u, hset, rfl⟩ := h
  exact (W.set_stores hset).thenUpdate rfl

theorem compareReg_stores {d : RegCode} {src : Src n} (h : compareReg w d src s = .ok t) : Stores s t [] := by
  simp only [compareReg, bind_ok, Except.ok.injEq] at h
  obtain ⟨_, _, _, _, rfl⟩ := h
  exact Stores.update rfl

theorem compareMem_stores {dst : MemOp} {v : BitVec n} (h : compareMem w dst v s = .ok t) : Stores s t [] := by
  simp only [compareMem, bind_ok, Except.ok.injEq] at h
  obtain ⟨_, _, _, _, rfl⟩ := h
  exact Stores.update rfl

theorem aluRegMem_stores (W : WidthSpec w home size) {op : BitVec n → AluOut n} {flags : Fcw → AluOut n → Fcw} {dst : RegMem}
    (h : aluRegMem w op flags dst s = .ok t) : Stores s t (keysAt s (regMemAddr s dst, size)) := by
  simp only [aluRegMem, bind_ok, Except.ok.injEq] at h
  obtain ⟨_, _, u, hwrite, rfl⟩ := h
  exact (writeRegMem_stores W hwrite).thenUpdate rfl

theorem execDab_stores {d : RegCode} (h : execDab d s = .next t) : Stores s t [] := by
  simp only [execDab] at h
  split at h <;> cases h <;> exact Stores.update (by simp)

theorem putQuad_stores {d : RegCode} {v : Quad} (h : s.putQuad d v = .ok t) : Stores s t [] := (putQuad_ok h).toStores

theorem execDiv_stores {d : RegCode} {src : Src 16} (h : execDiv d src s = .next t) : Stores s t [] := by
  simp only [execDiv, finish_next, bind_ok, Except.ok.injEq] at h
  obtain ⟨_, _, _, _, _, _, u, hset, rfl⟩ := h
  exact (longSpec.set_stores hset).thenUpdate rfl

theorem execDivl_stores {d : RegCode} {src : Src 32} (h : execDivl d src s = .next t) : Stores s t [] := by
  simp only [execDivl, finish_next, bind_ok, Except.ok.injEq] at h
  obtain ⟨_, _, _, _, _, _, u, hset, rfl⟩ := h
  exact (putQuad_stores hset).thenUpdate rfl

theorem execMult_stores {d : RegCode} {src : Src 16} (h : execMult d src s = .next t) : Stores s t [] := by
  simp only [execMult, finish_next, bind_ok, Except.ok.injEq] at h
  obtain ⟨_, _, _, _, u, hset, rfl⟩ := h
  exact (longSpec.set_stores hset).thenUpdate rfl

theorem execMultl_stores {d : RegCode} {src : Src 32} (h : execMultl d src s = .next t) : Stores s t [] := by
  simp only [execMultl, finish_next, bind_ok, Except.ok.injEq] at h
  obtain ⟨_, _, _, _, u, hset, rfl⟩ := h
  exact (putQuad_stores hset).thenUpdate rfl

theorem execExts_stores {d : RegCode} (h : execExts d s = .next t) : Stores s t [] := by
  obtain ⟨_, _, hset⟩ := bind_ok.1 (finish_next.1 h)
  exact longSpec.set_stores hset

theorem execExtsl_stores {d : RegCode} (h : execExtsl d s = .next t) : Stores s t [] := by
  obtain ⟨_, _, hset⟩ := bind_ok.1 (finish_next.1 h)
  exact putQuad_stores hset

/-! ### Bits -/

theorem testBit_stores {dst : RegMem} {b : Nat} (h : testBit w dst b s = .ok t) : Stores s t [] := by
  obtain ⟨_, _, htest⟩ := bind_ok.1 h
  cases htest
  exact Stores.update rfl

theorem testAndSet_stores (W : WidthSpec w home size) {dst : RegMem} (h : testAndSet w dst s = .ok t) :
    Stores s t (keysAt s (regMemAddr s dst, size)) := by
  simp only [testAndSet, bind_ok, Except.ok.injEq] at h
  obtain ⟨_, _, u, hwrite, rfl⟩ := h
  exact (writeRegMem_stores W hwrite).thenUpdate rfl

/-! ### Loads and exchanges -/

theorem exchange_stores (W : WidthSpec w home size) {d : RegCode} {src : RegMem} (h : exchange w d src s = .ok t) :
    Stores s t (keysAt s (regMemAddr s src, size)) := by
  cases src with
  | reg r =>
    simp only [exchange, bind_ok] at h
    obtain ⟨_, _, _, _, u, hr, hd⟩ := h
    exact (W.set_stores hr).thenNothing (W.set_stores hd)
  | mem m =>
    simp only [exchange, bind_ok] at h
    obtain ⟨a, ha, _, _, _, _, u, hstore, hd⟩ := h
    rw [regMemAddr, keysAt_ok ha]
    exact (W.store_stores hstore).thenNothing (W.set_stores hd)

theorem loadReg_stores (W : WidthSpec w home size) {d : RegCode} {src : LdSrc n} (h : loadReg w d src s = .ok t) : Stores s t [] := by
  obtain ⟨_, _, hset⟩ := bind_ok.1 h
  exact W.set_stores hset

theorem storeReg_stores (W : WidthSpec w home size) {dst : LdMem} {r : RegCode} (h : storeReg w dst r s = .ok t) :
    Stores s t (keysAt s (some (s.eaLd dst), size)) := by
  simp only [storeReg, bind_ok] at h
  obtain ⟨a, ha, _, _, hstore⟩ := h
  rw [keysAt_ok ha]
  exact W.store_stores hstore

theorem storeImm_stores (W : WidthSpec w home size) {dst : MemOp} {v : BitVec n} (h : storeImm w dst v s = .ok t) :
    Stores s t (keysAt s (some (s.ea dst), size)) := by
  obtain ⟨a, ha, hstore⟩ := bind_ok.1 h
  rw [keysAt_ok ha]
  exact W.store_stores hstore

theorem loadRel_stores (W : WidthSpec w home size) {d : RegCode} {disp : Word} (h : loadRel w d disp s = .ok t) : Stores s t [] := by
  obtain ⟨_, _, hset⟩ := bind_ok.1 h
  exact W.set_stores hset

theorem storeRel_stores (W : WidthSpec w home size) {disp : Word} {r : RegCode} (h : storeRel w disp r s = .ok t) :
    Stores s t (s.keysFrom (s.eaRa disp) size) := by
  obtain ⟨_, _, hstore⟩ := bind_ok.1 h
  exact W.store_stores hstore

theorem putAddr_stores {d : RegCode} {a : Address} (h : putAddr d a s = .ok t) : Stores s t [] := by
  unfold putAddr at h
  split at h
  · obtain ⟨_, _, hput⟩ := bind_ok.1 h
    cases hput
    exact Stores.update rfl
  · cases h
    exact Stores.update rfl

theorem execLda_stores {d : RegCode} {src : LdaSrc} (h : execLda d src s = .next t) : Stores s t [] := by
  obtain ⟨_, _, hput⟩ := bind_ok.1 (finish_next.1 h)
  exact putAddr_stores hput

theorem loadRegs_stores : ∀ {k : Nat} {d : RegCode} {a : Address} {s t : State}, loadRegs k d a s = .ok t → Stores s t []
  | 0, _, _, s, _, h => by cases h; exact Stores.refl s
  | k + 1, d, a, s, t, h => by
    obtain ⟨v, _, hrest⟩ := bind_ok.1 h
    exact (loadRegs_stores hrest).afterUpdate rfl

/-- LDM stores its words one after the other (R213). -/
theorem storeRegs_stores : ∀ {k : Nat} {r : RegCode} {a : Address} {s t : State}, storeRegs k r a s = .ok t →
    Stores s t (s.keysFrom a (2 * k))
  | 0, _, _, s, _, h => by cases h; exact Stores.refl s
  | k + 1, r, a, s, t, h => by
    obtain ⟨u, hstore, hrest⟩ := bind_ok.1 h
    have first : Stores s u (s.keysFrom a 2) := wordSpec.store_stores hstore
    have rest := storeRegs_stores hrest
    rw [first.keysFrom] at rest
    rw [Nat.mul_succ, Nat.add_comm, keysFrom_add]
    exact first.trans rest

theorem execLdmLoad_stores {d : RegCode} {src : MemOp} {k : BitVec 4} (h : execLdmLoad d src k s = .next t) : Stores s t [] := by
  obtain ⟨_, _, hload⟩ := bind_ok.1 (finish_next.1 h)
  exact loadRegs_stores hload

theorem execLdmStore_stores {dst : MemOp} {r : RegCode} {k : BitVec 4} (h : execLdmStore dst r k s = .next t) :
    Stores s t (keysAt s (some (s.ea dst), 2 * (k.toNat + 1))) := by
  obtain ⟨a, ha, hstore⟩ := bind_ok.1 (finish_next.1 h)
  rw [keysAt_ok ha]
  exact storeRegs_stores hstore

/-! ### The stack -/

theorem pushAddr_ok {r : RegCode} {a : Address} (k : Word) (h : s.addrReg r = .ok a) : pushAddr s r k = .ok (a.plus (-k)) := by
  rw [pushAddr, h]
  rfl

theorem pushWord_stores {r : RegCode} {v : Word} (h : s.pushWord r v = .ok t) : Stores s t (keysAt s (some (pushAddr s r 2), 2)) := by
  obtain ⟨a, ha, _, rfl⟩ := pushWord_ok h
  rw [keysAt_ok (pushAddr_ok 2 ha), keysFrom_two]
  exact ((Change.setReg s _ _).trans (Change.putWord _ _ v)).toStores

theorem pushLong_stores {r : RegCode} {v : Long} (h : s.pushLong r v = .ok t) : Stores s t (keysAt s (some (pushAddr s r 4), 4)) := by
  obtain ⟨a, ha, _, rfl⟩ := pushLong_ok h
  rw [keysAt_ok (pushAddr_ok 4 ha), keysFrom_four]
  exact ((Change.setReg s _ _).trans (Change.putLong _ _ v)).toStores

theorem not_mem_of_not_overlap {a b : List RegCode} (h : ¬ overlap a b = true) {r : RegCode} (hr : r ∈ a) : r ∉ b := fun hb =>
  h (List.any_eq_true.2 ⟨r, hr, List.contains_iff_mem.2 hb⟩)

theorem State.offReg_mem_addrRegs (s : State) (r : RegCode) : s.offReg r ∈ s.addrRegs r := by
  unfold State.offReg State.addrRegs
  split <;> simp

theorem State.reg_setReg_ne (s : State) {r m : RegCode} (v : Word) (h : r ≠ m) : (s.setReg r v).reg m = s.reg m := by
  rw [State.reg_setReg, if_neg (Ne.symm h)]

theorem State.addrReg_setReg (s : State) {r p : RegCode} (v : Word) (h : r ∉ s.addrRegs p) : (s.setReg r v).addrReg p = s.addrReg p := by
  unfold State.addrRegs at h
  unfold State.addrReg
  simp only [State.setReg_segmented, State.setReg_pcSeg]
  split at h
  · next hseg =>
    rw [List.mem_cons, List.mem_singleton, not_or] at h
    obtain ⟨hhi, hlo⟩ := h
    simp only [hseg, if_true, s.reg_setReg_ne v hhi, s.reg_setReg_ne v hlo]
  · next hseg =>
    rw [List.mem_singleton] at h
    simp only [hseg, Bool.false_eq_true, if_false, s.reg_setReg_ne v h]

/-- A register that an operand neither is nor uses does not move it. -/
theorem regMemAddr_setReg {r : RegCode} {long : Bool} {dst : RegMem} (v : Word) (h : r ∉ s.operandRegs long dst) :
    regMemAddr (s.setReg r v) dst = regMemAddr s dst := by
  cases dst with
  | reg => rfl
  | mem m =>
    cases m with
    | ir p => exact congrArg some (s.addrReg_setReg v h)
    | da a => cases a <;> rfl
    | x a i =>
      have hi : (s.setReg r v).reg i = s.reg i := s.reg_setReg_ne v (List.ne_of_not_mem_cons h)
      simp only [regMemAddr, State.ea, hi]
      cases a <;> rfl

/-- The stack pointer of POP does not move its destination, so this is where it was before (R216; log 35). -/
theorem popThenWrite_stores (W : WidthSpec w home size) {sp : RegCode} {long : Bool} {dst : RegMem} {x : Word} {v : BitVec n}
    (hsp : ¬ overlap (s.addrRegs sp) (s.operandRegs long dst) = true) (h : writeRegMem w (s.setReg (s.offReg sp) x) dst v = .ok t) :
    Stores s t (keysAt s (regMemAddr s dst, size)) := by
  have written := writeRegMem_stores W h
  rw [regMemAddr_setReg x (not_mem_of_not_overlap hsp (s.offReg_mem_addrRegs sp))] at written
  exact written.afterUpdate rfl

theorem execPop_stores {dst : RegMem} {sp : RegCode} (h : execPop dst sp s = .next t) : Stores s t (keysAt s (regMemAddr s dst, 2)) := by
  replace h := finish_next.1 h
  split at h
  · cases h
  · next hsp =>
    obtain ⟨⟨v, u⟩, hpop, hwrite⟩ := bind_ok.1 h
    obtain ⟨a, _, _, _, rfl⟩ := popWord_ok.1 hpop
    exact popThenWrite_stores wordSpec hsp hwrite

theorem execPopl_stores {dst : RegMem} {sp : RegCode} (h : execPopl dst sp s = .next t) :
    Stores s t (keysAt s (regMemAddr s dst, 4)) := by
  replace h := finish_next.1 h
  split at h
  · cases h
  · next hsp =>
    obtain ⟨⟨v, u⟩, hpop, hwrite⟩ := bind_ok.1 h
    obtain ⟨a, _, _, _, rfl⟩ := popLong_ok.1 hpop
    exact popThenWrite_stores longSpec hsp hwrite

theorem execPush_stores {sp : RegCode} {src : RegMem} (h : execPush sp src s = .next t) :
    Stores s t (keysAt s (some (pushAddr s sp 2), 2)) := by
  replace h := finish_next.1 h
  split at h
  · cases h
  · obtain ⟨_, _, hpush⟩ := bind_ok.1 h
    exact pushWord_stores hpush

theorem execPushl_stores {sp : RegCode} {src : RegMem} (h : execPushl sp src s = .next t) :
    Stores s t (keysAt s (some (pushAddr s sp 4), 4)) := by
  replace h := finish_next.1 h
  split at h
  · cases h
  · obtain ⟨_, _, hpush⟩ := bind_ok.1 h
    exact pushLong_stores hpush

/-! ### Logical operations -/

theorem logicReg_stores (W : WidthSpec w home size) {op : BitVec n → BitVec n → BitVec n} {d : RegCode} {src : Src n}
    (h : logicReg w op d src s = .ok t) : Stores s t [] := by
  simp only [logicReg, bind_ok, Except.ok.injEq] at h
  obtain ⟨_, _, _, _, u, hset, rfl⟩ := h
  exact (W.set_stores hset).thenUpdate rfl

theorem complement_stores (W : WidthSpec w home size) {dst : RegMem} (h : complement w dst s = .ok t) :
    Stores s t (keysAt s (regMemAddr s dst, size)) := by
  simp only [complement, bind_ok, Except.ok.injEq] at h
  obtain ⟨_, _, u, hwrite, rfl⟩ := h
  exact (writeRegMem_stores W hwrite).thenUpdate rfl

theorem testCond_stores (W : WidthSpec w home size) {cc : CondCode} {d : RegCode} (h : testCond w cc d s = .ok t) : Stores s t [] := by
  obtain ⟨_, _, hif⟩ := bind_ok.1 h
  split at hif
  · exact W.set_stores hif
  · cases hif
    exact Stores.refl s

theorem testOp_stores {dst : RegMem} (h : testOp w dst s = .ok t) : Stores s t [] := by
  obtain ⟨_, _, htest⟩ := bind_ok.1 h
  cases htest
  exact Stores.update rfl

/-! ### Transfers of control -/

theorem decrementJump_stores (W : WidthSpec w home size) {r : RegCode} {disp : BitVec 7} (h : decrementJump w r disp s = .ok t) :
    Stores s t [] := by
  simp only [decrementJump, bind_ok, Except.ok.injEq] at h
  obtain ⟨_, _, u, hset, rfl⟩ := h
  split
  · exact W.set_stores hset
  · exact (W.set_stores hset).thenUpdate rfl

theorem jumpTo_stores {a : Address} (h : s.jumpTo a = .ok t) : Stores s t [] := by
  obtain ⟨_, rfl⟩ := jumpTo_ok.1 h
  exact Stores.update rfl

theorem pushPc_stores (h : s.pushPc = .ok t) :
    Stores s t (keysAt s (if s.segmented then (some (pushAddr s 14 4), 4) else (some (pushAddr s 15 2), 2))) := by
  have hpush := pushPc_ok h
  split at hpush
  · next hseg =>
    obtain ⟨w, _, hlong⟩ := hpush
    rw [if_pos hseg]
    have pushed := pushLong_stores hlong
    rw [keysAt_drawn, keysAt_drawn, pushAddr_drawn, pushAddr_drawn] at pushed
    exact pushed.afterUpdate rfl
  · next hseg =>
    rw [if_neg hseg]
    exact pushWord_stores hpush

theorem popPc_stores (h : s.popPc = .ok t) : Stores s t [] := by
  have hpop := popPc_ok.1 h
  split at hpop
  · obtain ⟨w, u, hlong, _, rfl⟩ := hpop
    obtain ⟨_, _, _, _, rfl⟩ := popLong_ok.1 hlong
    exact Stores.update rfl
  · obtain ⟨w, u, hword, _, rfl⟩ := hpop
    obtain ⟨_, _, _, _, rfl⟩ := popWord_ok.1 hword
    exact Stores.update rfl

theorem execCall_stores {dst : MemOp} (h : execCall dst s = .next t) : Stores s t (keysAt s (storeAddr s (.call dst))) := by
  simp only [execCall, finish_next, bind_ok] at h
  obtain ⟨_, _, u, hpush, hjump⟩ := h
  exact (pushPc_stores hpush).thenNothing (jumpTo_stores hjump)

theorem execCalr_stores {disp : BitVec 12} (h : execCalr disp s = .next t) : Stores s t (keysAt s (storeAddr s (.calr disp))) := by
  obtain ⟨u, hpush, hjump⟩ := bind_ok.1 (finish_next.1 h)
  cases hjump
  exact (pushPc_stores hpush).thenUpdate rfl

theorem execJp_stores {cc : CondCode} {dst : MemOp} (h : execJp cc dst s = .next t) : Stores s t [] := by
  obtain ⟨_, _, hif⟩ := bind_ok.1 (finish_next.1 h)
  split at hif
  · exact jumpTo_stores hif
  · cases hif
    exact Stores.refl s

theorem execJr_stores {cc : CondCode} {disp : BitVec 8} (h : execJr cc disp s = .next t) : Stores s t [] := by
  cases finish_next.1 h
  split <;> exact Stores.update rfl

theorem execRet_stores {cc : CondCode} (h : execRet cc s = .next t) : Stores s t [] := by
  replace h := finish_next.1 h
  split at h
  · exact popPc_stores h
  · cases h
    exact Stores.refl s

/-! ### Rotates and shifts -/

theorem Stores.drawnIf (s : State) (p : Prop) [Decidable p] : Stores s (if p then s.drawn else s) [] := by
  split <;> exact Stores.update rfl

theorem rotateReg_stores (W : WidthSpec w home size) {one : BitVec n → Bool → BitVec n × Bool} {d : RegCode} {two : Bool}
    (h : rotateReg w one d two s = .ok t) : Stores s t [] := by
  simp only [rotateReg, bind_ok, Except.ok.injEq] at h
  obtain ⟨_, _, u, hset, rfl⟩ := h
  exact ((Stores.drawnIf s _).trans (W.set_stores hset)).thenUpdate rfl

theorem shiftReg_stores (W : WidthSpec w home size) {kind : ShiftKind} {d : RegCode} {c : Int} (h : shiftReg w kind d c s = .ok t) :
    Stores s t [] := by
  unfold shiftReg at h
  split at h
  · cases h
  · simp only [bind_ok, Except.ok.injEq] at h
    obtain ⟨_, _, u, hset, rfl⟩ := h
    exact (((Stores.drawnIf s _).trans (Stores.drawnIf _ _)).trans (W.set_stores hset)).thenUpdate rfl

theorem rotateDigit_stores {f : Byte → Byte → Byte × Byte} {hi lo : RegCode} (h : rotateDigit f hi lo s = .ok t) : Stores s t [] := by
  simp only [rotateDigit] at h
  split at h
  · cases h
  · cases h
    exact Stores.update rfl

/-! ### Block transfers and strings -/

theorem loadStep_stores (W : WidthSpec w home size) {delta : Word} {d p r : RegCode} (h : loadStep w delta d p r s = .ok t) :
    Stores s t (keysAt s (some (s.addrReg d), size)) := by
  unfold loadStep at h
  split at h
  · simp only [bind_ok, Except.ok.injEq] at h
    obtain ⟨_, _, _, _, b, hb, u, hstore, rfl⟩ := h
    rw [keysAt_ok hb]
    exact (W.store_stores hstore).thenUpdate rfl
  · cases h

theorem compareString_stores {regs : List RegCode} {delta : Word} {d p r : RegCode} {cc : CondCode} {found : Bool}
    (h : compareString w regs delta d p r cc s = .ok (found, t)) : Stores s t [] := by
  unfold compareString at h
  split at h
  · simp only [bind_ok, Except.ok.injEq, Prod.mk.injEq] at h
    obtain ⟨_, _, _, _, _, _, _, rfl⟩ := h
    exact Stores.update rfl
  · cases h

theorem compareStrings_stores {delta : Word} {d p r : RegCode} {cc : CondCode} {found : Bool}
    (h : compareStrings w delta d p r cc s = .ok (found, t)) : Stores s t [] := by
  unfold compareStrings at h
  split at h
  · simp only [bind_ok, Except.ok.injEq, Prod.mk.injEq] at h
    obtain ⟨_, _, _, _, _, _, _, _, _, rfl⟩ := h
    exact Stores.update rfl
  · cases h

theorem translateStep_stores {delta : Word} {d p r : RegCode} (h : translateStep delta d p r s = .ok t) :
    Stores s t (keysAt s (some (s.addrReg d), 1)) := by
  unfold translateStep at h
  split at h
  · simp only [bind_ok, Except.ok.injEq] at h
    obtain ⟨a, ha, e, _, rfl⟩ := h
    rw [keysAt_ok ha, keysFrom_one]
    exact (Change.writeByte s a e).toStores.thenUpdate rfl
  · cases h

theorem testStep_stores {delta : Word} {d p r : RegCode} (h : testStep delta d p r s = .ok t) : Stores s t [] := by
  unfold testStep at h
  split at h
  · simp only [bind_ok, Except.ok.injEq] at h
    obtain ⟨_, _, _, _, rfl⟩ := h
    exact Stores.update rfl
  · cases h

/-! ### Single and repeating forms -/

theorem Stores.again {keys : List Nat} (e : Stores s t keys) (done : Bool) : Stores s (again done t) keys := by
  cases done <;> exact e.thenUpdate rfl

theorem once_stores {keys : List Nat} {p : Except Refusal (Bool × State)} (hp : ∀ {found u}, p = .ok (found, u) → Stores s u keys)
    (h : once p = .ok t) : Stores s t keys := by
  obtain ⟨_, hstep, hend⟩ := bind_ok.1 h
  cases hend
  exact hp hstep

theorem untilFound_stores {keys : List Nat} {r : RegCode} {p : Except Refusal (Bool × State)}
    (hp : ∀ {found u}, p = .ok (found, u) → Stores s u keys) (h : untilFound r p = .ok t) : Stores s t keys := by
  obtain ⟨_, hstep, hend⟩ := bind_ok.1 h
  cases hend
  exact (hp hstep).again _

theorem untilZero_stores {keys : List Nat} {r : RegCode} {p : Except Refusal State} (hp : ∀ {u}, p = .ok u → Stores s u keys)
    (h : untilZero r p = .ok t) : Stores s t keys := by
  obtain ⟨_, hstep, hend⟩ := bind_ok.1 h
  cases hend
  exact (hp hstep).again _

theorem untilNonzero_stores {keys : List Nat} {r : RegCode} {p : Except Refusal State} (hp : ∀ {u}, p = .ok u → Stores s u keys)
    (h : untilNonzero r p = .ok t) : Stores s t keys := by
  obtain ⟨_, hstep, hend⟩ := bind_ok.1 h
  cases hend
  exact (hp hstep).again _

/-! ### Ports -/

theorem Stores.portRead (s : State) (e : OutEvent) : Stores s (s.portRead e) [] := by
  unfold State.portRead State.portTaken
  split <;> exact Stores.update rfl

theorem inputReg_stores (W : WidthSpec w home size) {ev : OutEvent} {cut : Word → BitVec n} {d : RegCode}
    (h : inputReg w ev cut d s = .ok t) : Stores s t [] :=
  (Stores.portRead s ev).trans (W.set_stores h)

theorem outputReg_stores {ev : BitVec n → OutEvent} {r : RegCode} (h : outputReg w ev r s = .ok t) : Stores s t [] := by
  obtain ⟨_, _, hemit⟩ := bind_ok.1 h
  cases hemit
  exact Stores.update rfl

theorem inputStep_stores (W : WidthSpec w home size) {ev : Word → OutEvent} {cut : Word → BitVec n} {delta : Word} {d p r : RegCode}
    (h : inputStep w ev cut delta d p r s = .ok t) : Stores s t (keysAt s (some (s.addrReg d), size)) := by
  unfold inputStep at h
  split at h
  · simp only [bind_ok, Except.ok.injEq] at h
    obtain ⟨a, ha, u, hstore, rfl⟩ := h
    have port := Stores.portRead s (ev (s.reg p))
    rw [keysAt_ok ha, ← port.keysFrom]
    exact (port.trans (W.store_stores hstore)).thenUpdate rfl
  · cases h

theorem outputStep_stores {ev : Word → BitVec n → OutEvent} {delta : Word} {d p r : RegCode}
    (h : outputStep w ev delta d p r s = .ok t) : Stores s t [] := by
  unfold outputStep at h
  split at h
  · simp only [bind_ok, Except.ok.injEq] at h
    obtain ⟨_, _, _, _, rfl⟩ := h
    exact Stores.update rfl
  · cases h

/-! ### Control registers and the program status -/

theorem ctlWrite_stores {c : Ctl} {v : Word} (h : s.ctlWrite c v = .ok t) : Stores s t [] := by
  cases c with
  | fcw =>
    obtain ⟨_, rfl⟩ := loadFcw_ok.1 h
    exact Stores.update rfl
  | refresh | psapseg | psapoff | nspseg | nspoff =>
    cases h
    exact Stores.update rfl

theorem ctlRead_stores (s : State) (c : Ctl) : Stores s (s.ctlRead c) [] := by
  cases c <;> exact Stores.update rfl

theorem loadStatus_stores {a : Address} (h : s.loadStatus a = .ok t) : Stores s t [] := by
  unfold State.loadStatus at h
  split at h
  · simp only [bind_ok, loadFcw_ok, setPcOff_ok] at h
    obtain ⟨_, _, _, _, _, _, _, ⟨_, rfl⟩, _, rfl⟩ := h
    exact Stores.update rfl
  · simp only [bind_ok, loadFcw_ok, setPcOff_ok] at h
    obtain ⟨_, _, _, _, _, ⟨_, rfl⟩, _, rfl⟩ := h
    exact Stores.update rfl

theorem returnFromTrap_stores (h : s.returnFromTrap = .ok t) : Stores s t [] := by
  obtain ⟨_, _, hback⟩ := returnFromTrap_ok h
  split at hback <;> obtain ⟨_, rfl⟩ := hback <;> exact Stores.update rfl

/-- A trap stores its frame and nothing else (R515). -/
theorem trapEntry_stores {kind : TrapKind} {ident off : Word} (h : s.trapEntry kind ident off = .ok t) : Stores s t (frameKeys s) := by
  rw [State.trapEntry_eq] at h
  obtain ⟨u, hpush, hload⟩ := bind_ok.1 h
  obtain ⟨_, _, rfl⟩ := loadEntry_ok hload
  have entering : Stores s s.trapState [] := Stores.update rfl
  exact (entering.trans (pushFrame_change hpush).toStores).thenUpdate rfl

end

end Sys2Proof.Machine
end

section
/-! SUPPORT. What every instruction stores, in the terms of `storeAddr` of the model's Safety file. -/

namespace Sys2Proof.Machine

/-- The instructions that are not privileged. -/
theorem user_stores {i : Instr} {s t : State} (hsys : isSystem i = false) (htrap : traps i s = false) (h : exec i s = .next t) :
    Stores s t (keysAt s (storeAddr s i)) := by
  cases i with
  | clr => exact writeRegMem_stores wordSpec (finish_next.1 h)
  | clrb => exact writeRegMem_stores byteSpec (finish_next.1 h)
  | ex => exact exchange_stores wordSpec (finish_next.1 h)
  | exb => exact exchange_stores byteSpec (finish_next.1 h)
  | ld => exact loadReg_stores wordSpec (finish_next.1 h)
  | ldb => exact loadReg_stores byteSpec (finish_next.1 h)
  | ldl => exact loadReg_stores longSpec (finish_next.1 h)
  | ldbk | ldctlbRead => exact byteSpec.set_stores (finish_next.1 h)
  | ldk | extsb => exact wordSpec.set_stores (finish_next.1 h)
  | ldStore => exact storeReg_stores wordSpec (finish_next.1 h)
  | ldbStore => exact storeReg_stores byteSpec (finish_next.1 h)
  | ldlStore => exact storeReg_stores longSpec (finish_next.1 h)
  | ldStoreImm => exact storeImm_stores wordSpec (finish_next.1 h)
  | ldbStoreImm => exact storeImm_stores byteSpec (finish_next.1 h)
  | lda => exact execLda_stores h
  | ldar => exact putAddr_stores (finish_next.1 h)
  | ldmLoad => exact execLdmLoad_stores h
  | ldmStore => exact execLdmStore_stores h
  | ldr => exact loadRel_stores wordSpec (finish_next.1 h)
  | ldrb => exact loadRel_stores byteSpec (finish_next.1 h)
  | ldrl => exact loadRel_stores longSpec (finish_next.1 h)
  | ldrStore => exact storeRel_stores wordSpec (finish_next.1 h)
  | ldrbStore => exact storeRel_stores byteSpec (finish_next.1 h)
  | ldrlStore => exact storeRel_stores longSpec (finish_next.1 h)
  | pop => exact execPop_stores h
  | popl => exact execPopl_stores h
  | push => exact execPush_stores h
  | pushl => exact execPushl_stores h
  | pushImm => exact pushWord_stores (finish_next.1 h)
  | adc d r => exact aluReg_stores wordSpec (finish_next.1 (show execAdc d r s = _ from h))
  | sbc d r => exact aluReg_stores wordSpec (finish_next.1 (show execSbc d r s = _ from h))
  | adcb d r => exact aluReg_stores byteSpec (finish_next.1 (show execAdcb d r s = _ from h))
  | sbcb d r => exact aluReg_stores byteSpec (finish_next.1 (show execSbcb d r s = _ from h))
  | add | sub => exact aluReg_stores wordSpec (finish_next.1 h)
  | addb | subb => exact aluReg_stores byteSpec (finish_next.1 h)
  | addl | subl => exact aluReg_stores longSpec (finish_next.1 h)
  | cp | cpb | cpl => exact compareReg_stores (finish_next.1 h)
  | cpMemImm | cpbMemImm => exact compareMem_stores (finish_next.1 h)
  | dab => exact execDab_stores h
  | dec | inc | neg => exact aluRegMem_stores wordSpec (finish_next.1 h)
  | decb | incb | negb => exact aluRegMem_stores byteSpec (finish_next.1 h)
  | div => exact execDiv_stores h
  | divl => exact execDivl_stores h
  | mult => exact execMult_stores h
  | multl => exact execMultl_stores h
  | exts => exact execExts_stores h
  | extsl => exact execExtsl_stores h
  | and | or | xor => exact logicReg_stores wordSpec (finish_next.1 h)
  | andb | orb | xorb => exact logicReg_stores byteSpec (finish_next.1 h)
  | com => exact complement_stores wordSpec (finish_next.1 h)
  | comb => exact complement_stores byteSpec (finish_next.1 h)
  | tcc => exact testCond_stores wordSpec (finish_next.1 h)
  | tccb => exact testCond_stores byteSpec (finish_next.1 h)
  | test | testb | testl => exact testOp_stores (finish_next.1 h)
  | call => exact execCall_stores h
  | calr => exact execCalr_stores h
  | djnz => exact decrementJump_stores wordSpec (finish_next.1 h)
  | dbjnz => exact decrementJump_stores byteSpec (finish_next.1 h)
  | jp => exact execJp_stores h
  | jr => exact execJr_stores h
  | ret => exact execRet_stores h
  | sc => cases htrap
  | bit | bitb => exact testBit_stores (finish_next.1 h)
  | bitDyn d r => exact testBit_stores (finish_next.1 (show execBitDyn d r s = _ from h))
  | bitbDyn d r => exact testBit_stores (finish_next.1 (show execBitbDyn d r s = _ from h))
  | resDyn d r => exact modifyRegMem_stores wordSpec (finish_next.1 (show execResDyn d r s = _ from h))
  | setDyn d r => exact modifyRegMem_stores wordSpec (finish_next.1 (show execSetDyn d r s = _ from h))
  | resbDyn d r => exact modifyRegMem_stores byteSpec (finish_next.1 (show execResbDyn d r s = _ from h))
  | setbDyn d r => exact modifyRegMem_stores byteSpec (finish_next.1 (show execSetbDyn d r s = _ from h))
  | res | set => exact modifyRegMem_stores wordSpec (finish_next.1 h)
  | resb | setb => exact modifyRegMem_stores byteSpec (finish_next.1 h)
  | tset => exact testAndSet_stores wordSpec (finish_next.1 h)
  | tsetb => exact testAndSet_stores byteSpec (finish_next.1 h)
  | rl | rlc | rr | rrc => exact rotateReg_stores wordSpec (finish_next.1 h)
  | rlb | rlcb | rrb | rrcb => exact rotateReg_stores byteSpec (finish_next.1 h)
  | rldb | rrdb => exact rotateDigit_stores (finish_next.1 h)
  | sla | sll | sra | srl | sda | sdl => exact shiftReg_stores wordSpec (finish_next.1 h)
  | slab | sllb | srab | srlb | sdab | sdlb => exact shiftReg_stores byteSpec (finish_next.1 h)
  | slal | slll | sral | srll | sdal | sdll => exact shiftReg_stores longSpec (finish_next.1 h)
  | cpd | cpi | cpdb | cpib => exact once_stores compareString_stores (finish_next.1 h)
  | cpdr | cpir | cpdrb | cpirb => exact untilFound_stores compareString_stores (finish_next.1 h)
  | cpsd | cpsi | cpsdb | cpsib => exact once_stores compareStrings_stores (finish_next.1 h)
  | cpsdr | cpsir | cpsdrb | cpsirb => exact untilFound_stores compareStrings_stores (finish_next.1 h)
  | ldd | ldi => exact loadStep_stores wordSpec (finish_next.1 h)
  | lddb | ldib => exact loadStep_stores byteSpec (finish_next.1 h)
  | lddr | ldir => exact untilZero_stores (loadStep_stores wordSpec) (finish_next.1 h)
  | lddrb | ldirb => exact untilZero_stores (loadStep_stores byteSpec) (finish_next.1 h)
  | trdb | trib => exact translateStep_stores (finish_next.1 h)
  | trdrb | trirb => exact untilZero_stores translateStep_stores (finish_next.1 h)
  | trtdb | trtib => exact testStep_stores (finish_next.1 h)
  | trtdrb | trtirb => exact untilNonzero_stores testStep_stores (finish_next.1 h)
  | comflg | resflg | setflg | nop =>
    cases h
    exact Stores.update rfl
  | ldctlbWrite =>
    obtain ⟨_, rfl⟩ := loadFlags_ok.1 (finish_next.1 h)
    exact Stores.update rfl
  | _ => cases hsys

/-- The system instructions, in system mode. -/
theorem system_stores {i : Instr} {s t : State} (hsys : isSystem i = true) (hs : s.fcw.sn = true) (h : exec i s = .next t) :
    Stores s t (keysAt s (storeAddr s i)) := by
  cases i with
  | iret => exact returnFromTrap_stores (body_of_system hs h)
  | mreq =>
    cases body_of_system hs h
    exact Stores.update (by simp)
  | di | ei | halt | mbit | mres | mset =>
    cases body_of_system hs h
    exact Stores.update rfl
  | ldctlRead d c =>
    obtain ⟨_, _, hset⟩ := bind_ok.1 (body_of_system hs h)
    exact (ctlRead_stores s c).trans (wordSpec.set_stores hset)
  | ldctlWrite =>
    obtain ⟨_, _, hwrite⟩ := bind_ok.1 (body_of_system hs h)
    exact ctlWrite_stores hwrite
  | ldps =>
    obtain ⟨_, _, hload⟩ := bind_ok.1 (body_of_system hs h)
    exact loadStatus_stores hload
  | inReg | inPort | sin => exact inputReg_stores wordSpec (body_of_system hs h)
  | inbReg | inbPort | sinb => exact inputReg_stores byteSpec (body_of_system hs h)
  | outReg | outPort | sout | outbReg | outbPort | soutb => exact outputReg_stores (body_of_system hs h)
  | ind | ini | sind | sini => exact inputStep_stores wordSpec (body_of_system hs h)
  | indb | inib | sindb | sinib => exact inputStep_stores byteSpec (body_of_system hs h)
  | indr | inir | sindr | sinir => exact untilZero_stores (inputStep_stores wordSpec) (body_of_system hs h)
  | indrb | inirb | sindrb | sinirb => exact untilZero_stores (inputStep_stores byteSpec) (body_of_system hs h)
  | outd | outi | soutd | souti | outdb | outib | soutdb | soutib => exact outputStep_stores (body_of_system hs h)
  | otdr | otir | sotdr | sotir | otdrb | otirb | sotdrb | sotirb =>
    exact untilZero_stores outputStep_stores (body_of_system hs h)
  | _ => cases hsys

/-- Every instruction, trap or not. -/
theorem exec_stores {i : Instr} {s t : State} (h : exec i s = .next t) : Stores s t (storedKeys i s) := by
  cases htrap : traps i s
  · rw [storedKeys_of_not_traps htrap]
    cases hsys : isSystem i
    · exact user_stores hsys htrap h
    · exact system_stores hsys (systemMode_of_not_traps hsys htrap) h
  · rw [storedKeys_of_traps htrap]
    obtain ⟨_, _, _, hentry⟩ := trapEntry_of_traps htrap h
    exact trapEntry_stores hentry

/-- Settles O13: memory and the note of stores are read off what every instruction stores. -/
theorem memoryFrame : Obligations.MemoryFrame := by
  constructor
  · intro i s t h a ha
    have stores := exec_stores h
    rw [State.readByte, State.readByte, State.key_congr s t stores.cfg]
    exact stores.read _ ha
  · intro i s t h
    exact (exec_stores h).noted

end Sys2Proof.Machine
end

section
/-! SUPPORT. The condition codes (spec/30_encoding.md R140) after a subtraction (spec/42_arithmetic.md R242). -/

namespace Sys2Proof.Machine

/-- Code k + 8 is the negation of code k, under any flags (R140). -/
theorem condHolds_add_eight (k : CondCode) (c z s v : Bool) : condHolds (k + 8) c z s v = !condHolds k c z s v := by
  revert k c z s v
  decide

/-- Settles O43: each row is the condition evaluated, and the negation holds under any flags. -/
theorem conditionCodeTable : Obligations.ConditionCodeTable := by
  intro f
  refine ⟨rfl, Iff.rfl, ?_, ?_, Iff.rfl, Iff.rfl, Iff.rfl, Iff.rfl, rfl, ?_, ?_, ?_, ?_, ?_, ?_, ?_,
    fun k => condHolds_add_eight k f.c f.z f.s f.pv⟩ <;>
    simp [Fcw.cond, condHolds]

/-- Z of a subtraction tells whether the operands are equal (R242). -/
theorem subN_z {n : Nat} (a b : BitVec n) : (subN a b false).z = decide (a = b) := by
  simp [subN, BitVec.sub_eq_iff_eq_add, beq_eq_decide]

/-- C of a subtraction is the unsigned borrow (R242). -/
theorem subN_c {n : Nat} (a b : BitVec n) : (subN a b false).c = decide (a.toNat < b.toNat) := rfl

/-- Between operands of one sign the difference is negative exactly when it borrows. -/
theorem msb_sub_of_msb_eq {n : Nat} {a b : BitVec n} (h : a.msb = b.msb) : (a - b).msb = a.ult b := by
  have hiff : (2 ^ n ≤ 2 * a.toNat) ↔ (2 ^ n ≤ 2 * b.toNat) := by
    rw [← ge_iff_le, ← BitVec.msb_eq_true_iff_two_mul_ge, h, BitVec.msb_eq_true_iff_two_mul_ge]
  have ha := a.isLt
  have hb := b.isLt
  rw [Bool.eq_iff_iff, BitVec.msb_eq_true_iff_two_mul_ge, BitVec.ult_iff_lt, BitVec.lt_def, BitVec.toNat_sub]
  rcases Nat.lt_or_ge a.toNat b.toNat with hlt | hge
  · rw [Nat.mod_eq_of_lt (by omega)]
    omega
  · rw [show 2 ^ n - b.toNat + a.toNat = a.toNat - b.toNat + 2 ^ n by omega, Nat.add_mod_right, Nat.mod_eq_of_lt (by omega)]
    omega

/-- S corrected by V is the signed order of the operands (R242): V is false between operands of one sign, and otherwise the difference has
the sign of b exactly when it overflows. -/
theorem subN_s_xor_v {n : Nat} (a b : BitVec n) : ((subN a b false).s ^^ (subN a b false).v) = decide (a.toInt < b.toInt) := by
  have hs : (subN a b false).s = (a - b).msb := by simp [subN]
  have hv : (subN a b false).v = (a.msb != b.msb && (a - b).msb != a.msb) := by simp [subN]
  change _ = a.slt b
  rw [hs, hv, BitVec.slt_eq_ult]
  by_cases h : a.msb = b.msb
  · simp [h, msb_sub_of_msb_eq h]
  · have hult : a.ult b = b.msb := by
      have hA := BitVec.msb_eq_true_iff_two_mul_ge (x := a)
      have hB := BitVec.msb_eq_true_iff_two_mul_ge (x := b)
      rw [Bool.eq_iff_iff, BitVec.ult_iff_lt, BitVec.lt_def]
      cases ha : a.msb <;> cases hb : b.msb <;> simp_all <;> omega
    rw [hult]
    cases ha : a.msb <;> cases hb : b.msb <;> simp_all

/-- Settles O44: the flags of the difference are the borrow, equality and the signed order; each condition combines them. -/
theorem compareConditionsMeanOrder : Obligations.CompareConditionsMeanOrder := by
  intro n a b _
  have hlt : compareMatch a b 1 = decide (a.toInt < b.toInt) := subN_s_xor_v a b
  have hle : compareMatch a b 2 = (decide (a = b) || decide (a.toInt < b.toInt)) := by rw [← subN_z, ← hlt]; rfl
  have hult : compareMatch a b 7 = decide (a.toNat < b.toNat) := subN_c a b
  have hule : compareMatch a b 3 = (decide (a.toNat < b.toNat) || decide (a = b)) := by rw [← subN_z, ← hult]; rfl
  have heq : compareMatch a b 6 = decide (a = b) := subN_z a b
  have hneg (k : CondCode) : compareMatch a b (k + 8) = !compareMatch a b k := condHolds_add_eight k _ _ _ _
  have hge : compareMatch a b 9 = !compareMatch a b 1 := hneg 1
  have hgt : compareMatch a b 10 = !compareMatch a b 2 := hneg 2
  have huge : compareMatch a b 15 = !compareMatch a b 7 := hneg 7
  have hugt : compareMatch a b 11 = !compareMatch a b 3 := hneg 3
  have hne : compareMatch a b 14 = !compareMatch a b 6 := hneg 6
  have hnat : a = b ↔ a.toNat = b.toNat := BitVec.toNat_inj.symm
  have hint : a = b ↔ a.toInt = b.toInt := BitVec.toInt_inj.symm
  rw [hge, hgt, huge, hugt, hne, hlt, hle, hult, hule, heq]
  simp only [Bool.not_eq_true', Bool.or_eq_true, Bool.or_eq_false_iff, decide_eq_true_iff, decide_eq_false_iff_not]
  refine ⟨trivial, ?_, not_lt, ?_, trivial, ?_, not_lt, ?_, trivial, trivial⟩
  · rw [hint]; omega
  · rw [hint]; omega
  · rw [hnat]; omega
  · rw [hnat]; omega

end Sys2Proof.Machine
end

section
/-! SUPPORT. The fields of an instruction word, put together and taken apart (spec/30_encoding.md R112, R121). -/

namespace Sys2Proof

open BitVec (extractLsb'_append_eq_of_le extractLsb'_append_extractLsb'_eq_extractLsb')

/-- The fields of three values put together. -/
theorem fields_of_append_three {k m n : Nat} (a : BitVec k) (b : BitVec m) (c : BitVec n) :
    (a ++ b ++ c).extractLsb' (n + m) k = a ∧ (a ++ b ++ c).extractLsb' n m = b ∧ (a ++ b ++ c).extractLsb' 0 n = c := by
  simp [extractLsb'_append_eq_of_le, BitVec.extractLsb'_append_eq_right]

/-- The fields of four values put together. -/
theorem fields_of_append_four {k l m n : Nat} (a : BitVec k) (b : BitVec l) (c : BitVec m) (d : BitVec n) :
    (a ++ b ++ c ++ d).extractLsb' (n + (m + l)) k = a ∧ (a ++ b ++ c ++ d).extractLsb' (n + m) l = b ∧
      (a ++ b ++ c ++ d).extractLsb' n m = c ∧ (a ++ b ++ c ++ d).extractLsb' 0 n = d := by
  simp [extractLsb'_append_eq_of_le, BitVec.extractLsb'_append_eq_right]

/-- A value put together from its three fields. -/
theorem append_of_three_fields {k m n : Nat} (v : BitVec (k + m + n)) :
    v.extractLsb' (n + m) k ++ v.extractLsb' n m ++ v.extractLsb' 0 n = v := by
  rw [extractLsb'_append_extractLsb'_eq_extractLsb' rfl, extractLsb'_append_extractLsb'_eq_extractLsb' (by omega),
    BitVec.extractLsb'_eq_self]

/-- A value put together from its four fields. -/
theorem append_of_four_fields {k l m n : Nat} (v : BitVec (k + l + m + n)) :
    v.extractLsb' (n + (m + l)) k ++ v.extractLsb' (n + m) l ++ v.extractLsb' n m ++ v.extractLsb' 0 n = v := by
  rw [extractLsb'_append_extractLsb'_eq_extractLsb' (by omega), extractLsb'_append_extractLsb'_eq_extractLsb' (by omega),
    extractLsb'_append_extractLsb'_eq_extractLsb' (by omega), BitVec.extractLsb'_eq_self]

@[simp] theorem fields_opWord (mode : BitVec 2) (op : BitVec 6) (f1 f0 : RegCode) :
    modeOf (opWord mode op f1 f0) = mode ∧ opOf (opWord mode op f1 f0) = op ∧ nib1 (opWord mode op f1 f0) = f1 ∧
      nib0 (opWord mode op f1 f0) = f0 :=
  fields_of_append_four mode op f1 f0

@[simp] theorem hiByte_opWord (mode : BitVec 2) (op : BitVec 6) (f1 f0 : RegCode) : hiByte (opWord mode op f1 f0) = mode ++ op :=
  (fields_of_append_three (mode ++ op) f1 f0).1

@[simp] theorem fields_nibWord (a b c d : BitVec 4) :
    nib3 (nibWord a b c d) = a ∧ nib2 (nibWord a b c d) = b ∧ nib1 (nibWord a b c d) = c ∧ nib0 (nibWord a b c d) = d :=
  fields_of_append_four a b c d

theorem opWord_fields (w : Word) : opWord (modeOf w) (opOf w) (nib1 w) (nib0 w) = w :=
  append_of_four_fields (k := 2) (l := 6) (m := 4) (n := 4) w

theorem nibWord_fields (w : Word) : nibWord (nib3 w) (nib2 w) (nib1 w) (nib0 w) = w :=
  append_of_four_fields (k := 4) (l := 4) (m := 4) (n := 4) w

theorem loByte_fields (w : Word) : nib1 w ++ nib0 w = loByte w := extractLsb'_append_extractLsb'_eq_extractLsb' rfl

@[simp] theorem loByte_nibWord (a b c d : BitVec 4) : loByte (nibWord a b c d) = c ++ d := by
  simp [← loByte_fields]

/-- A field of one bit is its bit. -/
theorem extract_bit {n : Nat} {v : BitVec n} {i : Nat} {b : BitVec 1} (h : v.getLsbD i = (b == 1#1)) : v.extractLsb' i 1 = b := by
  rw [BitVec.getLsbD_eq_extractLsb'] at h
  generalize v.extractLsb' i 1 = bit at h ⊢
  revert bit b
  decide

/-- A value numbered k is the constant k. -/
theorem eq_ofNat_of_toNat {n k : Nat} {v : BitVec n} (h : v.toNat = k) : v = BitVec.ofNat n k := by
  rw [← h, BitVec.ofNat_toNat, BitVec.setWidth_eq]

end Sys2Proof
end

section
/-! SUPPORT. The operand parsers of the decoder against the words that the encoder writes (spec/30_encoding.md R113 to R121), each in both
directions: a parser reads a value back from its words (`_words`), and what it took are the words of the value it answers (`reads_`). -/

namespace Sys2Proof

open Machine (bind_ok append_high append_low append_halves bind_of_ok)

/-! ### Computations that can fail -/

/-- `vs` are the words of whatever p answers, before the words it leaves. -/
def Reads {α : Type} (p : Except DecodeError (Parsed α)) (enc : α → List Word) (vs : List Word) : Prop :=
  ∀ a rest, p = .ok (a, rest) → vs = enc a ++ rest

section Reads
variable {α β : Type} {p : Except DecodeError (Parsed α)} {enc : α → List Word} {ws vs : List Word}

theorem reads_error {e : DecodeError} : Reads (.error e) enc vs := nofun

theorem reads_ok {a : α} {rest : List Word} (h : vs = enc a ++ rest) : Reads (.ok (a, rest)) enc vs := by
  rintro _ _ ⟨⟩
  exact h

theorem reads_bind {enc' : β → List Word} {f : Parsed α → Except DecodeError (Parsed β)} (hp : Reads p enc ws)
    (hf : ∀ a rest, ws = enc a ++ rest → Reads (f (a, rest)) enc' vs) : Reads (p >>= f) enc' vs := by
  intro b rest h
  obtain ⟨⟨a, rest'⟩, hpa, hfa⟩ := bind_ok.1 h
  exact hf a rest' (hp a rest' hpa) b rest hfa

theorem reads_ite {q : Except DecodeError (Parsed α)} {c : Prop} [Decidable c] (ht : c → Reads p enc vs) (hf : ¬c → Reads q enc vs) :
    Reads (if c then p else q) enc vs := by
  split
  · exact ht ‹c›
  · exact hf ‹¬c›

/-- An instruction made of a parsed value. -/
theorem Reads.thenInstr {f : α → Instr} (hp : Reads p enc vs) (henc : ∀ a, encode (f a) = enc a) :
    Reads (Sys2Proof.thenInstr p f) encode vs := by
  refine reads_bind hp fun a rest h => reads_ok ?_
  rw [henc, h]

end Reads

@[simp] theorem thenInstr_ok {α : Type} (a : α) (ws : List Word) (f : α → Instr) : thenInstr (.ok (a, ws)) f = .ok (f a, ws) := rfl

/-! ### Words, immediates and addresses -/

@[simp] theorem takeWord_cons (w : Word) (ws : List Word) : takeWord (w :: ws) = .ok (w, ws) := rfl

theorem reads_takeWord {ws : List Word} : Reads (takeWord ws) (fun w => [w]) ws := by
  cases ws with
  | nil => exact reads_error
  | cons w ws => exact reads_ok rfl

/-- A parser of immediates, and the words of an immediate (R115, R116). -/
structure ImmCodec {n : Nat} (imm : List Word → Except DecodeError (Parsed (BitVec n))) (immWords : BitVec n → List Word) : Prop where
  words : ∀ v ws, imm (immWords v ++ ws) = .ok (v, ws)
  reads : ∀ ws, Reads (imm ws) immWords ws

theorem immCodec_byte : ImmCodec takeImm8 imm8Words where
  words v ws := by simp [takeImm8, imm8Words]
  reads ws := by
    refine reads_bind reads_takeWord fun w rest hw => reads_ite (fun heq => reads_ok ?_) fun _ => reads_error
    have hdouble : loByte w ++ loByte w = w := by
      conv_lhs => arg 1; rw [← heq]
      exact Machine.hiByte_loByte w
    rw [hw, imm8Words, hdouble]

theorem immCodec_word : ImmCodec takeImm16 imm16Words where
  words _ _ := rfl
  reads _ := reads_takeWord

theorem immCodec_long : ImmCodec takeImm32 imm32Words where
  words v ws := by
    have h : v.extractLsb' 16 16 ++ v.extractLsb' 0 16 = v := append_halves (n := 16) (m := 16) v
    simp [takeImm32, imm32Words, h]
  reads ws := by
    refine reads_bind reads_takeWord fun hi rest hhi => reads_bind reads_takeWord fun lo rest' hlo => reads_ok ?_
    have hwords : imm32Words (hi ++ lo) = [hi, lo] := by rw [imm32Words, append_low hi lo, append_high hi lo]
    rw [hhi, hlo, hwords]
    rfl

/-- The fields of a segmented address word with the form bit `form` (R118). -/
theorem fields_segWord (form : BitVec 1) (n : SegNum) (off : Byte) :
    (form ++ n ++ off).getLsbD 15 = (form == 1#1) ∧ (form ++ n ++ off).extractLsb' 8 7 = n ∧ loByte (form ++ n ++ off) = off := by
  obtain ⟨hform, hseg, hoff⟩ := fields_of_append_three form n off
  refine ⟨?_, hseg, hoff⟩
  rw [BitVec.getLsbD_eq_extractLsb', hform]

/-- A segmented address word is its form bit, its segment number and its low byte (R118). -/
theorem segWord_of_fields {w : Word} {form : BitVec 1} (h : w.getLsbD 15 = (form == 1#1)) : form ++ w.extractLsb' 8 7 ++ loByte w = w := by
  rw [← extract_bit h]
  exact append_of_three_fields (k := 1) (m := 7) (n := 8) w

theorem takeAddr_short {w : Word} {ws : List Word} (h : w.getLsbD 15 = false) :
    takeAddr true (w :: ws) = .ok (.short (w.extractLsb' 8 7) (loByte w), ws) := by
  simp only [takeAddr, takeWord_cons, bind_of_ok, if_true, h, Bool.false_eq_true, if_false]

theorem takeAddr_long {w off : Word} {ws : List Word} (h : w.getLsbD 15 = true) (hzero : loByte w = 0) :
    takeAddr true (w :: off :: ws) = .ok (.long (w.extractLsb' 8 7) off, ws) := by
  simp [takeAddr, h, hzero]

theorem takeAddr_words {seg : Bool} {a : Addr} (h : checkAddr seg a = none) (ws : List Word) :
    takeAddr seg (a.words ++ ws) = .ok (a, ws) := by
  cases a with
  | plain off => cases seg with
    | false => rfl
    | true => cases h
  | short n off => cases seg with
    | false => cases h
    | true =>
      obtain ⟨hform, hseg, hoff⟩ := fields_segWord 0#1 n off
      refine (takeAddr_short hform).trans ?_
      rw [hseg, hoff]
      rfl
  | long n off => cases seg with
    | false => cases h
    | true =>
      obtain ⟨hform, hseg, hoff⟩ := fields_segWord 1#1 n 0#8
      refine (takeAddr_long hform hoff).trans ?_
      rw [hseg]
      rfl

theorem reads_takeAddr {seg : Bool} {ws : List Word} : Reads (takeAddr seg ws) Addr.words ws := by
  refine reads_bind reads_takeWord fun w rest hw => reads_ite (fun _ => ?_) fun _ => reads_ok hw
  refine reads_ite (fun hlong => reads_ite (fun hzero => ?_) fun _ => reads_error) fun hshort => reads_ok ?_
  · have hword : 1#1 ++ w.extractLsb' 8 7 ++ loByte w = w := segWord_of_fields hlong
    replace hword : 1#1 ++ w.extractLsb' 8 7 ++ 0#8 = w := by rwa [hzero] at hword
    refine reads_bind reads_takeWord fun off rest' hoff => reads_ok ?_
    rw [hw, hoff, Addr.words, hword]
    rfl
  · have hword : 0#1 ++ w.extractLsb' 8 7 ++ loByte w = w := segWord_of_fields (Bool.not_eq_true _ ▸ hshort)
    rw [hw, Addr.words, hword]

/-! ### Operands -/

theorem MemOp.mode_ne_two (m : MemOp) : m.mode ≠ 2 := by cases m <;> simp [MemOp.mode]
theorem MemOp.mode_ne_three (m : MemOp) : m.mode ≠ 3 := by cases m <;> simp [MemOp.mode]
theorem RegMem.mode_ne_three (m : RegMem) : m.mode ≠ 3 := by
  cases m with
  | reg r => simp [RegMem.mode]
  | mem m => exact m.mode_ne_three

theorem checkAddrReg_none {seg : Bool} {r : RegCode} (h : checkAddrReg seg r = none) : r ≠ 0 := by
  rintro rfl
  cases h

theorem checkNonzero_none {r : RegCode} (h : checkNonzero r = none) : r ≠ 0 := by
  rintro rfl
  cases h

/-- Mode 00 with the field 0000 is no memory operand (R113). -/
theorem MemOp.not_immediate {seg : Bool} {m : MemOp} (h : checkMemOp seg m = none) : ¬(m.mode = 0 ∧ m.field = 0) := by
  cases m with
  | ir r => exact fun hm => checkAddrReg_none h hm.2
  | da a => rintro ⟨⟨⟩⟩
  | x a r => rintro ⟨⟨⟩⟩

theorem takeMem_words {seg : Bool} {m : MemOp} (h : checkMemOp seg m = none) (ws : List Word) :
    takeMem seg m.mode m.field (m.words ++ ws) = .ok (m, ws) := by
  cases m with
  | ir r => exact if_neg (checkAddrReg_none h)
  | da a =>
    change (takeAddr seg (a.words ++ ws) >>= _) = _
    rw [takeAddr_words h]
    rfl
  | x a r =>
    obtain ⟨ha, hr⟩ := Option.or_eq_none_iff.1 h
    have hx : (if r = 0 then MemOp.da a else .x a r) = .x a r := if_neg (checkNonzero_none hr)
    change (takeAddr seg (a.words ++ ws) >>= _) = _
    rw [takeAddr_words ha]
    exact congrArg (fun m => Except.ok (m, ws)) hx

theorem of_takeMem {seg : Bool} {mode : BitVec 2} {f : RegCode} {ws rest : List Word} {m : MemOp}
    (h : takeMem seg mode f ws = .ok (m, rest)) : mode = m.mode ∧ f = m.field ∧ ws = m.words ++ rest := by
  unfold takeMem at h
  split at h
  next hmode =>
    split at h
    · cases h
    · cases h
      exact ⟨eq_ofNat_of_toNat hmode, rfl, rfl⟩
  next hmode =>
    obtain ⟨⟨a, rest'⟩, ha, hm⟩ := bind_ok.1 h
    cases hm
    split
    · exact ⟨eq_ofNat_of_toNat hmode, ‹f = 0›, reads_takeAddr _ _ ha⟩
    · exact ⟨eq_ofNat_of_toNat hmode, rfl, reads_takeAddr _ _ ha⟩
  next => cases h

theorem takeRegMem_words {seg : Bool} {reg : RegCode → Option DecodeError} {m : RegMem} (h : checkRegMem seg reg m = none)
    (ws : List Word) : takeRegMem seg m.mode m.field (m.words ++ ws) = .ok (m, ws) := by
  cases m with
  | reg r => rfl
  | mem m =>
    refine (if_neg m.mode_ne_two).trans ?_
    change (takeMem seg m.mode m.field (m.words ++ ws) >>= _) = _
    rw [takeMem_words h]
    rfl

theorem of_takeRegMem {seg : Bool} {mode : BitVec 2} {f : RegCode} {ws rest : List Word} {m : RegMem}
    (h : takeRegMem seg mode f ws = .ok (m, rest)) : mode = m.mode ∧ f = m.field ∧ ws = m.words ++ rest := by
  unfold takeRegMem at h
  split at h
  next hmode =>
    cases h
    exact ⟨hmode, rfl, rfl⟩
  next =>
    obtain ⟨⟨m', rest'⟩, hm, hok⟩ := bind_ok.1 h
    cases hok
    exact of_takeMem hm

/-! ### Operands with the first word of their instruction (R120) -/

section
variable {seg : Bool} {mode : BitVec 2} {op : BitVec 6} {f f0 : RegCode} {ws : List Word}

theorem reads_encMem : Reads (takeMem seg mode f ws) (fun m => encMem op f0 m [] []) (opWord mode op f f0 :: ws) := by
  intro m rest h
  obtain ⟨hmode, hfield, hws⟩ := of_takeMem h
  simp [encMem, hmode, hfield, hws]

theorem reads_encRegMem : Reads (takeRegMem seg mode f ws) (encRegMem op f0) (opWord mode op f f0 :: ws) := by
  intro m rest h
  obtain ⟨hmode, hfield, hws⟩ := of_takeRegMem h
  simp [encRegMem, hmode, hfield, hws]

theorem reads_encStack : Reads (takeRegMem seg mode f ws) (encStack op f0) (opWord mode op f0 f :: ws) := by
  intro m rest h
  obtain ⟨hmode, hfield, hws⟩ := of_takeRegMem h
  simp [encStack, hmode, hfield, hws]

variable {n : Nat} {imm : List Word → Except DecodeError (Parsed (BitVec n))} {immWords : BitVec n → List Word}

theorem reads_encSrc (hc : ImmCodec imm immWords) :
    Reads (takeSrc imm seg mode f ws) (encSrc immWords op f0) (opWord mode op f f0 :: ws) := by
  unfold takeSrc
  refine reads_ite (fun hreg => reads_ok ?_) fun _ => reads_ite (fun himm => ?_) fun _ => ?_
  · rw [hreg]
    rfl
  · obtain ⟨hmode, hfield⟩ := himm
    refine reads_bind (hc.reads ws) fun v rest hv => reads_ok ?_
    rw [hmode, hfield, hv]
    rfl
  · refine reads_bind (reads_encMem (op := op) (f0 := f0)) fun m rest hm => reads_ok ?_
    rw [hm]
    simp [encMem, encSrc]

/-- The same operands of a load, which has more of them (R203). -/
theorem reads_encLdSrc (hc : ImmCodec imm immWords) {opB : BitVec 6} :
    Reads (takeLdSrc imm seg mode f ws) (encLdSrc immWords op opB f0) (opWord mode op f f0 :: ws) := by
  refine reads_bind (reads_encSrc (op := op) (f0 := f0) hc) fun src rest h => ?_
  rw [h]
  cases src with
  | reg r => exact reads_ok rfl
  | imm v => exact reads_ok rfl
  | mem m => exact reads_ok (by simp [encSrc, encLdSrc, encLdMem, encMem])

theorem takeSrc_imm (hc : ImmCodec imm immWords) (v : BitVec n) (ws : List Word) :
    takeSrc imm seg 0 0 (immWords v ++ ws) = .ok (.imm v, ws) := by
  change (imm (immWords v ++ ws) >>= _) = _
  rw [hc.words]
  rfl

theorem takeSrc_mem {m : MemOp} (h : checkMemOp seg m = none) (ws : List Word) :
    takeSrc imm seg m.mode m.field (m.words ++ ws) = .ok (.mem m, ws) := by
  unfold takeSrc
  rw [if_neg m.mode_ne_two, if_neg (m.not_immediate h), takeMem_words h]
  rfl

end

end Sys2Proof
end

section
/-! SUPPORT. What the decoder takes for an instruction are the words of that instruction: every row of the opcode table (spec/30_encoding.md
R125) answers what the encoder writes with the same first word. The one exception is the count word of a byte shift to the right, which may
have either upper byte (spec/46_rotate_shift.md R350; log 17). -/

namespace Sys2Proof

open Machine (bind_ok append_high append_low append_halves)

section
variable {seg : Bool} {mode : BitVec 2} {op : BitVec 6} {f1 f0 : RegCode} {ws : List Word}

/-! ### The forms with a second word -/

theorem reads_takeIndex : Reads (takeIndex ws) (fun x => [nibWord 0 x 0 0]) ws := by
  refine reads_bind reads_takeWord fun w rest hw => reads_ite (fun hzero => reads_ok ?_) fun _ => reads_error
  obtain ⟨h3, hlow⟩ := hzero
  have h1 : nib1 w = 0 := by rw [← (append_high (nib1 w) (nib0 w) : _ = nib1 w), loByte_fields, hlow]; rfl
  have h0 : nib0 w = 0 := by rw [← (append_low (nib1 w) (nib0 w) : _ = nib0 w), loByte_fields, hlow]; rfl
  rw [hw, ← nibWord_fields w, h3, h1, h0]
  simp

theorem reads_index {f : RegCode → Instr} {w : Word} (henc : ∀ x, encode (f x) = [w, nibWord 0 x 0 0]) :
    Reads (thenInstr (takeIndex ws) f) encode (w :: ws) := by
  refine reads_bind reads_takeIndex fun x rest hx => reads_ok ?_
  rw [henc, hx]
  rfl

theorem reads_word {f : Word → Instr} {w : Word} (henc : ∀ v, encode (f v) = [w, v]) :
    Reads (thenInstr (takeWord ws) f) encode (w :: ws) := by
  refine reads_bind reads_takeWord fun v rest hv => reads_ok ?_
  rw [henc, hv]
  rfl

theorem reads_memImm {n : Nat} {imm : List Word → Except DecodeError (Parsed (BitVec n))} {immWords : BitVec n → List Word}
    (hc : ImmCodec imm immWords) {f : MemOp → BitVec n → Instr} (henc : ∀ m v, encode (f m v) = encMem op f0 m [] (immWords v)) :
    Reads (do
      let (m, ws) ← takeMem seg mode f1 ws
      let (v, ws) ← imm ws
      .ok (f m v, ws)) encode (opWord mode op f1 f0 :: ws) := by
  refine reads_bind (reads_encMem (op := op) (f0 := f0)) fun m rest hm => reads_bind (hc.reads rest) fun v rest' hv => reads_ok ?_
  rw [hm, henc, hv]
  simp [encMem]

theorem reads_multiple {f : RegCode → MemOp → BitVec 4 → Instr}
    (henc : ∀ d m n, encode (f d m n) = encMem op f0 m [nibWord 0 d 0 n] []) :
    Reads (do
      let (w, ws) ← takeWord ws
      let (m, ws) ← takeMem seg mode f1 ws
      if nib3 w = 0 ∧ nib1 w = 0 then .ok (f (nib2 w) m (nib0 w), ws) else undef) encode (opWord mode op f1 f0 :: ws) := by
  refine reads_bind reads_takeWord fun w rest hw =>
    reads_bind (reads_encMem (op := op) (f0 := f0)) fun m rest' hm => reads_ite (fun hzero => reads_ok ?_) fun _ => reads_error
  obtain ⟨h3, h1⟩ := hzero
  have hword := nibWord_fields w
  rw [h3, h1] at hword
  simp only [encMem, List.append_nil, List.nil_append, List.cons_append, List.cons.injEq] at hm
  obtain ⟨hfirst, hrest⟩ := hm
  rw [henc, hw, hfirst, hrest, hword]
  simp [encMem]

theorem reads_relBase {rel : Word → Instr} {base : RegCode → Word → Instr} (hrel : ∀ d, encode (rel d) = [opWord 0 op 0 f0, d])
    (hbase : ∀ r d, encode (base r d) = [opWord 0 op r f0, d]) :
    Reads (parseRelBase rel base f1 ws) encode (opWord 0 op f1 f0 :: ws) := by
  refine reads_bind reads_takeWord fun disp rest hdisp => reads_ok ?_
  rw [hdisp]
  split
  · rw [hrel, ‹f1 = 0›]
    rfl
  · rw [hbase]
    rfl

theorem reads_ioBlock {single repeating : RegCode → RegCode → RegCode → Instr}
    (hsingle : ∀ d s r, encode (single d s r) = encBlock mode op s f0 r d 8)
    (hrepeating : ∀ d s r, encode (repeating d s r) = encBlock mode op s f0 r d 0) :
    Reads (parseIoBlock single repeating f1 ws) encode (opWord mode op f1 f0 :: ws) := by
  refine reads_bind reads_takeWord fun w rest hw => reads_ite (fun h3 => ?_) fun _ => reads_error
  have hword := nibWord_fields w
  rw [h3] at hword
  split
  next h =>
    replace hword : nibWord 0 (nib2 w) (nib1 w) 8 = w := by rwa [eq_ofNat_of_toNat h] at hword
    exact reads_ok (by rw [hsingle, encBlock, hword, hw]; rfl)
  next h =>
    replace hword : nibWord 0 (nib2 w) (nib1 w) 0 = w := by rwa [eq_ofNat_of_toNat h] at hword
    exact reads_ok (by rw [hrepeating, encBlock, hword, hw]; rfl)
  next => exact reads_error

theorem reads_compare {f : RegCode → RegCode → RegCode → CondCode → Instr}
    (henc : ∀ d s r cc, encode (f d s r cc) = encBlock mode op s f0 r d cc) :
    Reads (parseCompare f f1 ws) encode (opWord mode op f1 f0 :: ws) := by
  refine reads_bind reads_takeWord fun w rest hw => reads_ite (fun h3 => reads_ok ?_) fun _ => reads_error
  have hword := nibWord_fields w
  rw [h3] at hword
  rw [henc, hw, encBlock, hword]
  rfl

theorem reads_tr {f : RegCode → RegCode → RegCode → Instr} {t : BitVec 4}
    (henc : ∀ d s r, encode (f d s r) = encBlock mode op d f0 r s t) : Reads (parseTr f t f1 ws) encode (opWord mode op f1 f0 :: ws) := by
  refine reads_bind reads_takeWord fun w rest hw => reads_ite (fun h => reads_ok ?_) fun _ => reads_error
  obtain ⟨h3, h0⟩ := h
  have hword := nibWord_fields w
  rw [h3, h0] at hword
  rw [henc, hw, encBlock, hword]
  rfl

/-! ### Rows 00 to 2F -/

theorem reads_byteGroup : Reads (parseByteGroup seg mode f1 f0 ws) encode (opWord mode 0x0C f1 f0 :: ws) := by
  unfold parseByteGroup
  generalize hk : f0.toNat = k
  obtain rfl := eq_ofNat_of_toNat hk
  split
  case h_1 | h_3 | h_4 | h_6 | h_7 => exact reads_encRegMem.thenInstr fun _ => rfl
  case h_2 => exact reads_ite (fun hmode => reads_ok (by rw [hmode]; rfl)) fun _ => reads_memImm immCodec_byte fun _ _ => rfl
  case h_5 => exact reads_memImm immCodec_byte fun _ _ => rfl
  case h_8 => exact reads_ite (fun hmode => reads_ok (by rw [hmode]; rfl)) fun _ => reads_error
  case h_9 => exact reads_error

theorem reads_wordGroup : Reads (parseWordGroup seg mode f1 f0 ws) encode (opWord mode 0x0D f1 f0 :: ws) := by
  unfold parseWordGroup
  generalize hk : f0.toNat = k
  obtain rfl := eq_ofNat_of_toNat hk
  split
  case h_1 | h_3 | h_5 | h_7 | h_9 => exact reads_encRegMem.thenInstr fun _ => rfl
  case h_2 | h_6 => exact reads_ite (fun hmode => reads_ok (by rw [hmode]; rfl)) fun _ => reads_memImm immCodec_word fun _ _ => rfl
  case h_4 => exact reads_ite (fun hmode => reads_ok (by rw [hmode]; rfl)) fun _ => reads_error
  case h_8 => exact reads_ite (fun ⟨hmode, hfield⟩ => reads_ok (by rw [hmode, hfield]; rfl)) fun _ => reads_error
  case h_10 => exact reads_ite (fun hmode => by rw [hmode]; exact reads_word fun _ => rfl) fun _ => reads_error
  case h_11 => exact reads_error

theorem reads_longGroup : Reads (parseLongGroup seg mode f1 f0 ws) encode (opWord mode 0x1C f1 f0 :: ws) := by
  unfold parseLongGroup
  generalize hk : f0.toNat = k
  obtain rfl := eq_ofNat_of_toNat hk
  split
  · exact reads_encRegMem.thenInstr fun _ => rfl
  · exact reads_multiple (f := .ldmLoad) fun _ _ _ => rfl
  · exact reads_multiple (f := fun s m n => .ldmStore m s n) fun _ _ _ => rfl
  · exact reads_error

theorem reads_bit {static : RegMem → BitVec 4 → Instr} {dynamic : RegCode → RegCode → Instr}
    (hstatic : ∀ m b, encode (static m b) = encRegMem op b m) (hdynamic : ∀ d s, encode (dynamic d s) = encDyn 0 op 0 s d) :
    Reads (parseBit static dynamic seg mode f1 f0 ws) encode (opWord mode op f1 f0 :: ws) := by
  refine reads_ite (fun h => ?_) fun _ => reads_encRegMem.thenInstr fun m => hstatic m f0
  obtain ⟨hmode, hfield⟩ := h
  rw [hmode, hfield]
  exact reads_index fun d => hdynamic d f0

theorem reads_low : Reads (parseLow seg mode op f1 f0 ws) encode (opWord mode op f1 f0 :: ws) := by
  unfold parseLow
  generalize hk : op.toNat = k
  obtain rfl := eq_ofNat_of_toNat hk
  split
  case h_1 | h_3 | h_5 | h_7 | h_9 | h_11 => exact (reads_encSrc immCodec_byte).thenInstr fun _ => rfl
  case h_2 | h_4 | h_6 | h_8 | h_10 | h_12 | h_24 | h_26 => exact (reads_encSrc immCodec_word).thenInstr fun _ => rfl
  case h_13 => exact reads_byteGroup
  case h_14 => exact reads_wordGroup
  case h_15 | h_17 | h_21 | h_23 | h_25 => exact (reads_encSrc immCodec_long).thenInstr fun _ => rfl
  case h_16 | h_18 | h_20 | h_22 => exact reads_encStack.thenInstr fun _ => rfl
  case h_19 => exact (reads_encLdSrc immCodec_long).thenInstr fun _ => rfl
  case h_27 => exact reads_longGroup
  case h_28 => exact reads_encMem.thenInstr fun _ => rfl
  case h_29 =>
    refine reads_ite (fun hmode => ?_) fun _ => reads_encMem.thenInstr fun _ => rfl
    exact reads_ite (fun hfield => reads_ok (by rw [hmode, hfield]; rfl)) fun _ => reads_error
  case h_30 =>
    refine reads_ite (fun hfield => ?_) fun _ => reads_error
    rw [hfield]
    exact reads_encMem.thenInstr fun _ => rfl
  case h_31 => exact (reads_encLdSrc immCodec_byte).thenInstr fun _ => rfl
  case h_32 => exact (reads_encLdSrc immCodec_word).thenInstr fun _ => rfl
  case h_33 | h_34 | h_35 | h_36 | h_37 | h_38 => exact reads_bit (fun _ _ => rfl) fun _ _ => rfl
  case h_39 | h_40 | h_41 | h_42 | h_43 | h_44 => exact reads_encRegMem.thenInstr fun _ => rfl
  case h_45 | h_46 => exact reads_ite (fun hmode => reads_ok (by rw [hmode]; rfl)) fun _ => reads_encMem.thenInstr fun _ => rfl
  case h_47 => exact reads_error

/-! ### Rows 30 to 3F -/

theorem reads_ioByte : Reads (parseIoByte f1 f0 ws) encode (opWord 0 0x3A f1 f0 :: ws) := by
  unfold parseIoByte
  generalize hk : f0.toNat = k
  obtain rfl := eq_ofNat_of_toNat hk
  split
  case h_1 | h_2 | h_3 | h_4 | h_9 | h_10 | h_11 | h_12 => exact reads_ioBlock (fun _ _ _ => rfl) fun _ _ _ => rfl
  case h_5 | h_6 | h_7 | h_8 => exact reads_word fun _ => rfl
  case h_13 => exact reads_error

theorem reads_ioWord : Reads (parseIoWord f1 f0 ws) encode (opWord 0 0x3B f1 f0 :: ws) := by
  unfold parseIoWord
  generalize hk : f0.toNat = k
  obtain rfl := eq_ofNat_of_toNat hk
  split
  case h_1 | h_2 | h_3 | h_4 | h_9 | h_10 | h_11 | h_12 => exact reads_ioBlock (fun _ _ _ => rfl) fun _ _ _ => rfl
  case h_5 | h_6 | h_7 | h_8 => exact reads_word fun _ => rfl
  case h_13 => exact reads_error

theorem reads_row3 : Reads (parseRow3 seg op f1 f0 ws) encode (opWord 0 op f1 f0 :: ws) := by
  unfold parseRow3
  generalize hk : op.toNat = k
  obtain rfl := eq_ofNat_of_toNat hk
  split
  case h_1 | h_2 | h_3 | h_4 | h_5 | h_6 | h_7 => exact reads_relBase (fun _ => rfl) fun _ _ => rfl
  case h_8 =>
    refine reads_ite (fun hfield => ?_) fun _ => reads_error
    rw [hfield]
    exact reads_encMem.thenInstr fun _ => rfl
  case h_9 => exact reads_ioByte
  case h_10 => exact reads_ioWord
  case h_11 | h_12 | h_13 | h_14 => exact reads_ok rfl
  case h_15 => exact reads_error

/-! ### Rows 70 to 7F -/

theorem code_of_ctlOf {k : BitVec 3} {c : Ctl} (h : ctlOf k = some c) : c.code = k := by
  unfold ctlOf at h
  split at h <;> cases h <;> exact (eq_ofNat_of_toNat ‹_›).symm

/-- A first word from its upper byte and its fields. -/
theorem opWord_eq_append : opWord mode op f1 f0 = (mode ++ op : BitVec 8) ++ (f1 ++ f0 : BitVec 8) :=
  BitVec.append_assoc

/-- The first word of DI and EI: their two bits are active low (R445, R446). -/
theorem encode_enables (vi nvi : Bool) : encode (.di vi nvi) = [opWord 1 0x3C 0 (0#2 ++ BitVec.ofBool (!vi) ++ BitVec.ofBool (!nvi))] ∧
    encode (.ei vi nvi) = [opWord 1 0x3C 0 (1#2 ++ BitVec.ofBool (!vi) ++ BitVec.ofBool (!nvi))] := by
  cases vi <;> cases nvi <;> exact ⟨rfl, rfl⟩

/-- The fields of DI and EI taken apart. -/
theorem encode_enables_of_field {f0 : BitVec 4} (h : f0.getLsbD 3 = false) :
    encode (if f0.getLsbD 2 then .ei (!f0.getLsbD 1) (!f0.getLsbD 0) else .di (!f0.getLsbD 1) (!f0.getLsbD 0)) = [opWord 1 0x3C 0 f0] := by
  revert f0
  decide

theorem ldctl_field {f0 : BitVec 4} {form : BitVec 1} (h : f0.getLsbD 3 = (form == 1#1)) : form ++ f0.extractLsb' 0 3 = f0 := by
  revert f0 form
  decide

theorem encode_ldctl (c : Ctl) (r : RegCode) : encode (.ldctlRead r c) = [opWord 1 0x3D r (0#1 ++ c.code)] ∧
    encode (.ldctlWrite c r) = [opWord 1 0x3D r (1#1 ++ c.code)] := by
  cases c <;> revert r <;> decide

theorem encode_sc (v : BitVec 8) : encode (.sc v) = [opWord 1 0x3F (v.extractLsb' 4 4) (v.extractLsb' 0 4)] := by
  rw [opWord_eq_append, append_halves (n := 4) (m := 4) v]
  rfl

theorem reads_control : Reads (parseControl f1 f0 ws) encode (opWord 1 0x3B f1 f0 :: ws) := by
  unfold parseControl
  generalize hk : f0.toNat = k
  obtain rfl := eq_ofNat_of_toNat hk
  split
  · exact reads_ite (fun hfield => reads_ok (by rw [hfield]; rfl)) fun _ => reads_error
  · exact reads_ite (fun hfield => reads_ok (by rw [hfield]; rfl)) fun _ => reads_error
  · exact reads_ite (fun hfield => reads_ok (by rw [hfield]; rfl)) fun _ => reads_error
  · exact reads_ite (fun hfield => reads_ok (by rw [hfield]; rfl)) fun _ => reads_error
  · exact reads_ok rfl
  · exact reads_error

theorem reads_row7 : Reads (parseRow7 seg op f1 f0 ws) encode (opWord 1 op f1 f0 :: ws) := by
  unfold parseRow7
  generalize hk : op.toNat = k
  obtain rfl := eq_ofNat_of_toNat hk
  split
  case h_1 | h_2 | h_3 | h_4 | h_5 | h_6 | h_8 => exact reads_index fun _ => rfl
  case h_7 =>
    refine reads_bind reads_takeAddr fun a rest ha => reads_ok ?_
    rw [ha]
    split
    · rw [‹f1 = 0›]
      rfl
    · rfl
  case h_9 =>
    refine reads_ite (fun hfield => ?_) fun _ => reads_error
    rw [hfield]
    exact reads_encMem.thenInstr fun _ => rfl
  case h_10 => exact reads_ite (fun ⟨hf1, hf0⟩ => reads_ok (by rw [hf1, hf0]; rfl)) fun _ => reads_error
  case h_11 => exact reads_control
  case h_12 =>
    refine reads_ite (fun h => ?_) fun _ => reads_error
    obtain ⟨hfield, h3⟩ := h
    have henc := encode_enables_of_field h3
    rw [hfield]
    refine reads_ite (fun h2 => reads_ok ?_) fun h2 => reads_ok ?_
    · rw [if_pos h2] at henc
      rw [henc]
      rfl
    · rw [if_neg h2] at henc
      rw [henc]
      rfl
  case h_13 =>
    split
    next c hc =>
      have hcode := code_of_ctlOf hc
      obtain ⟨hread, hwrite⟩ := encode_ldctl c f1
      refine reads_ite (fun h3 => reads_ok ?_) fun h3 => reads_ok ?_
      · rw [hwrite, hcode, ldctl_field h3]
        rfl
      · rw [hread, hcode, ldctl_field (Bool.eq_false_iff.2 h3)]
        rfl
    next => exact reads_error
  case h_14 =>
    refine reads_ok ?_
    rw [encode_sc, append_high f1 f0, append_low f1 f0]
    rfl
  case h_15 => exact reads_error

/-! ### Rows B0 to BF -/

/-- The count word of a right shift holds the negated count (R350). -/
theorem neg_ofNat_sub_toNat (w : Word) : -BitVec.ofNat 16 (65536 - w.toNat) = w := by
  apply BitVec.eq_of_toNat_eq
  rw [BitVec.toNat_neg, BitVec.toNat_ofNat]
  omega

theorem reads_shift {left right : Nat → Instr} {w : Word} (hleft : ∀ n, encode (left n) = [w, BitVec.ofNat 16 n])
    (hright : ∀ n, encode (right n) = [w, -BitVec.ofNat 16 n]) : Reads (parseShift false left right ws) encode (w :: ws) := by
  refine reads_bind reads_takeWord fun c rest hc => ?_
  refine reads_ite (fun h => by cases h) fun _ => reads_ite (fun _ => reads_ok ?_) fun _ => reads_ok ?_
  · rw [hright, neg_ofNat_sub_toNat, hc]
    rfl
  · rw [hleft, BitVec.ofNat_toNat, BitVec.setWidth_eq, hc]
    rfl

theorem reads_shiftWord : Reads (parseShiftWord f1 f0 ws) encode (opWord 2 0x33 f1 f0 :: ws) := by
  unfold parseShiftWord
  generalize hk : f0.toNat = k
  have hlt : k < 16 := hk ▸ f0.isLt
  obtain rfl := eq_ofNat_of_toNat hk
  split
  case h_1 | h_2 | h_3 | h_4 | h_5 | h_6 | h_7 | h_8 => exact reads_ok rfl
  case h_9 | h_11 | h_13 | h_15 => exact reads_shift (fun _ => rfl) fun _ => rfl
  case h_10 | h_12 | h_14 => exact reads_index fun _ => rfl
  case h_16 =>
    simp only [imp_false] at *
    obtain rfl : k = 15 := by omega
    exact reads_index fun _ => rfl

theorem reads_blockByte : Reads (parseBlockByte f1 f0 ws) encode (opWord 2 0x3A f1 f0 :: ws) := by
  unfold parseBlockByte
  generalize hk : f0.toNat = k
  obtain rfl := eq_ofNat_of_toNat hk
  split
  case h_1 | h_3 | h_4 | h_5 | h_6 | h_8 | h_9 | h_10 => exact reads_compare fun _ _ _ _ => rfl
  case h_2 | h_7 => exact reads_ioBlock (fun _ _ _ => rfl) fun _ _ _ => rfl
  case h_11 => exact reads_error

theorem reads_blockWord : Reads (parseBlockWord f1 f0 ws) encode (opWord 2 0x3B f1 f0 :: ws) := by
  unfold parseBlockWord
  generalize hk : f0.toNat = k
  obtain rfl := eq_ofNat_of_toNat hk
  split
  case h_1 | h_3 | h_4 | h_5 | h_6 | h_8 | h_9 | h_10 => exact reads_compare fun _ _ _ _ => rfl
  case h_2 | h_7 => exact reads_ioBlock (fun _ _ _ => rfl) fun _ _ _ => rfl
  case h_11 => exact reads_error

theorem reads_translate : Reads (parseTranslate f1 f0 ws) encode (opWord 2 0x38 f1 f0 :: ws) := by
  unfold parseTranslate
  generalize hk : f0.toNat = k
  obtain rfl := eq_ofNat_of_toNat hk
  split
  case h_1 | h_2 | h_3 | h_4 | h_5 | h_6 | h_7 | h_8 => exact reads_tr fun _ _ _ => rfl
  case h_9 => exact reads_error

theorem reads_extend : Reads (parseExtend f1 f0 ws) encode (opWord 2 0x31 f1 f0 :: ws) := by
  unfold parseExtend
  generalize hk : f0.toNat = k
  obtain rfl := eq_ofNat_of_toNat hk
  split
  · exact reads_ok rfl
  · exact reads_ok rfl
  · exact reads_ok rfl
  · exact reads_error

/-- Rows B0 to BF but the byte shifts. -/
theorem reads_rowB (hop : op ≠ 0x32) : Reads (parseRowB op f1 f0 ws) encode (opWord 2 op f1 f0 :: ws) := by
  unfold parseRowB
  generalize hk : op.toNat = k
  obtain rfl := eq_ofNat_of_toNat hk
  split
  case h_1 => exact reads_ite (fun hfield => reads_ok (by rw [hfield]; rfl)) fun _ => reads_error
  case h_2 => exact reads_extend
  case h_3 => exact absurd rfl hop
  case h_4 => exact reads_shiftWord
  case h_5 | h_6 | h_7 | h_8 | h_12 | h_13 | h_14 => exact reads_ok rfl
  case h_9 => exact reads_translate
  case h_10 => exact reads_blockByte
  case h_11 => exact reads_blockWord
  case h_15 => exact reads_error

/-! ### The compact formats -/

theorem nib3_of_modeOf {w : Word} (h : modeOf w = 3) : 0xC ≤ (nib3 w).toNat := by
  have hm : (modeOf w).toNat = 3 := congrArg BitVec.toNat h
  simp only [modeOf, BitVec.extractLsb'_toNat, Nat.shiftRight_eq_div_pow] at hm
  simp only [nib3, BitVec.extractLsb'_toNat, Nat.shiftRight_eq_div_pow]
  omega

theorem reads_compact {w : Word} (hmode : modeOf w = 3) : Reads (parseCompact w ws) encode (w :: ws) := by
  have hnib := nib3_of_modeOf hmode
  have hlt := (nib3 w).isLt
  have hbyte : nib3 w ++ nib2 w ++ loByte w = w := append_of_three_fields (k := 4) (m := 4) (n := 8) w
  have hhalf : nib3 w ++ w.extractLsb' 0 12 = w := append_halves (n := 4) (m := 12) w
  have hdjnz : nib3 w ++ nib2 w ++ w.extractLsb' 7 1 ++ w.extractLsb' 0 7 = w := append_of_four_fields (k := 4) (l := 4) (m := 1) (n := 7) w
  unfold parseCompact
  generalize hk : (nib3 w).toNat = k at hnib hlt
  rw [eq_ofNat_of_toNat hk] at hbyte hhalf hdjnz
  split
  · exact reads_ok (congrArg (· :: ws) hbyte.symm)
  · exact reads_ok (congrArg (· :: ws) hhalf.symm)
  · exact reads_ok (congrArg (· :: ws) hbyte.symm)
  · simp only [imp_false] at *
    obtain rfl : k = 0xF := by omega
    refine reads_ite (fun h => reads_ok ?_) fun h => reads_ok ?_
    · rw [extract_bit (b := 1#1) h] at hdjnz
      exact congrArg (· :: ws) hdjnz.symm
    · rw [extract_bit (b := 0#1) (Bool.eq_false_iff.2 h)] at hdjnz
      exact congrArg (· :: ws) hdjnz.symm

/-! ### The byte shifts -/

/-- Words that the decoder takes for an instruction: those that the encoder writes, or a byte shift to the right with any count word. -/
inductive Spells : List Word → Instr → Prop
  | encoded (i : Instr) : Spells (encode i) i
  | srlb (d : RegCode) (n : Nat) (c : Word) : Spells [opWord 2 0x32 d 1, c] (.srlb d n)
  | srab (d : RegCode) (n : Nat) (c : Word) : Spells [opWord 2 0x32 d 9, c] (.srab d n)

theorem encSrc_ne_nil {n : Nat} {imm : BitVec n → List Word} (src : Src n) : encSrc imm op f0 src ≠ [] := by
  cases src <;> exact List.cons_ne_nil _ _

theorem encLdMem_ne_nil {opB : BitVec 6} (m : LdMem) : encLdMem op opB f0 m ≠ [] := by
  cases m <;> exact List.cons_ne_nil _ _

theorem encLdSrc_ne_nil {n : Nat} {imm : BitVec n → List Word} {opB : BitVec 6} (src : LdSrc n) : encLdSrc imm op opB f0 src ≠ [] := by
  cases src with
  | mem m => exact encLdMem_ne_nil m
  | reg | imm => exact List.cons_ne_nil _ _

theorem encLda_ne_nil (src : LdaSrc) : encLda f0 src ≠ [] := by
  cases src <;> exact List.cons_ne_nil _ _

theorem encode_ne_nil (i : Instr) : encode i ≠ [] := by
  cases i with
  | add _ src | sub _ src | or _ src | and _ src | xor _ src | cp _ src | mult _ src | div _ src
  | addb _ src | subb _ src | orb _ src | andb _ src | xorb _ src | cpb _ src
  | addl _ src | subl _ src | cpl _ src | multl _ src | divl _ src => exact encSrc_ne_nil src
  | ld _ src | ldb _ src | ldl _ src => exact encLdSrc_ne_nil src
  | ldStore dst | ldbStore dst | ldlStore dst => exact encLdMem_ne_nil dst
  | lda _ src => exact encLda_ne_nil src
  | _ => exact List.cons_ne_nil _ _

theorem Spells.head {words : List Word} {i : Instr} (h : Spells words i) : words.head? = some (firstWord i) := by
  cases h with
  | encoded =>
    obtain ⟨w, tail, hwords⟩ := List.exists_cons_of_ne_nil (encode_ne_nil i)
    rw [firstWord, hwords]
    rfl
  | srlb | srab => rfl

theorem Spells.length {words : List Word} {i : Instr} (h : Spells words i) : words.length = lengthOf i := by
  cases h <;> rfl

/-- The words that p takes spell the instruction it answers. -/
def Spelled (p : Except DecodeError (Parsed Instr)) (vs : List Word) : Prop :=
  ∀ i rest, p = .ok (i, rest) → ∃ words, vs = words ++ rest ∧ Spells words i

theorem Reads.spelled {p : Except DecodeError (Parsed Instr)} {vs : List Word} (h : Reads p encode vs) : Spelled p vs :=
  fun i rest hp => ⟨encode i, h i rest hp, .encoded i⟩

theorem spelled_ok {words rest vs : List Word} {i : Instr} (hvs : vs = words ++ rest) (h : Spells words i) :
    Spelled (.ok (i, rest)) vs := by
  rintro _ _ ⟨⟩
  exact ⟨words, hvs, h⟩

theorem spelled_ite {p q : Except DecodeError (Parsed Instr)} {vs : List Word} {c : Prop} [Decidable c] (ht : c → Spelled p vs)
    (hf : ¬c → Spelled q vs) : Spelled (if c then p else q) vs := by
  split
  · exact ht ‹c›
  · exact hf ‹¬c›

theorem spelled_bind {α : Type} {p : Except DecodeError (Parsed α)} {enc : α → List Word} {vs : List Word}
    {f : Parsed α → Except DecodeError (Parsed Instr)} (hp : Reads p enc ws)
    (hf : ∀ a rest, ws = enc a ++ rest → Spelled (f (a, rest)) vs) : Spelled (p >>= f) vs := by
  intro i rest h
  obtain ⟨⟨a, rest'⟩, hpa, hfa⟩ := bind_ok.1 h
  exact hf a rest' (hp a rest' hpa) i rest hfa

theorem ofNat_loByte {c : Word} (h : hiByte c = 0) : BitVec.ofNat 16 (loByte c).toNat = c := by
  have hhigh : (hiByte c).toNat = 0 := congrArg BitVec.toNat h
  apply BitVec.eq_of_toNat_eq
  simp only [hiByte, loByte, BitVec.extractLsb'_toNat, Nat.shiftRight_eq_div_pow, BitVec.toNat_ofNat] at hhigh ⊢
  omega

theorem spelled_shift {left right : Nat → Instr} {w : Word} (hleft : ∀ n, encode (left n) = [w, BitVec.ofNat 16 n])
    (hright : ∀ n c, Spells [w, c] (right n)) : Spelled (parseShift true left right ws) (w :: ws) := by
  refine spelled_bind reads_takeWord fun c rest hc => ?_
  refine spelled_ite (fun _ => spelled_ite (fun _ => spelled_ite (fun _ => ?_) fun _ => reads_error.spelled) fun _ =>
    spelled_ite (fun hzero => (reads_ok ?_).spelled) fun _ => reads_error.spelled) fun h => absurd rfl h
  · exact spelled_ok (congrArg (w :: ·) hc) (hright _ c)
  · rw [hleft, ofNat_loByte hzero, hc]
    rfl

theorem spelled_shiftByte : Spelled (parseShiftByte f1 f0 ws) (opWord 2 0x32 f1 f0 :: ws) := by
  unfold parseShiftByte
  generalize hk : f0.toNat = k
  obtain rfl := eq_ofNat_of_toNat hk
  split
  case h_1 | h_2 | h_3 | h_4 | h_5 | h_6 | h_7 | h_8 => exact (reads_ok rfl).spelled
  case h_9 => exact spelled_shift (fun _ => rfl) (.srlb f1)
  case h_10 | h_12 => exact (reads_index fun _ => rfl).spelled
  case h_11 => exact spelled_shift (fun _ => rfl) (.srab f1)
  case h_13 => exact reads_error.spelled

/-! ### The decoder -/

theorem spelled_rowB : Spelled (parseRowB op f1 f0 ws) (opWord 2 op f1 f0 :: ws) := by
  by_cases hop : op = 0x32
  · rw [hop]
    exact spelled_shiftByte
  · exact (reads_rowB hop).spelled

theorem spelled_parse (w : Word) : Spelled (parse seg (w :: ws)) (w :: ws) := by
  have hfields := opWord_fields w
  refine spelled_ite (fun hcompact => (reads_compact hcompact).spelled) fun hcompact => ?_
  refine spelled_ite (fun _ => ?_) fun _ => spelled_ite (fun hmode => ?_) fun hmode0 => spelled_ite (fun hmode => ?_) fun hmode1 => ?_
  · exact (hfields ▸ reads_low).spelled
  · rw [hmode] at hfields
    exact (hfields ▸ reads_row3).spelled
  · rw [hmode] at hfields
    exact (hfields ▸ reads_row7).spelled
  · have hrest : ∀ mode : BitVec 2, mode ≠ 3 → mode ≠ 0 → mode ≠ 1 → mode = 2 := by decide
    rw [hrest _ hcompact hmode0 hmode1] at hfields
    have hrow := spelled_rowB (op := opOf w) (f1 := nib1 w) (f0 := nib0 w) (ws := ws)
    rwa [hfields] at hrow

theorem decode_spells {i : Instr} {rest : List Word} (h : decode seg ws = .ok (i, rest)) :
    wfError seg i = none ∧ ∃ words, ws = words ++ rest ∧ Spells words i := by
  obtain ⟨⟨j, rest'⟩, hparse, hcheck⟩ := bind_ok.1 h
  replace hcheck : (match wfError seg j with
    | none => Except.ok (j, rest')
    | some e => .error e) = .ok (i, rest) := hcheck
  split at hcheck <;> cases hcheck
  refine ⟨‹_›, ?_⟩
  cases ws with
  | nil => cases hparse
  | cons w ws => exact spelled_parse w i rest hparse

end

/-- Settles O2: what the decoder takes spells the instruction, and a spelling has its first word and its length. -/
theorem decodedIsWellFormed : Obligations.DecodedIsWellFormed := by
  intro seg ws i rest h
  obtain ⟨hwf, words, rfl, hspells⟩ := decode_spells h
  rw [← hspells.length]
  refine ⟨by rw [wellFormed, hwf]; rfl, ?_, List.length_append, List.drop_left.symm⟩
  rw [List.head?_append, hspells.head]
  rfl

end Sys2Proof
end

section
/-! SUPPORT. The decoder reads back what the encoder writes, for each form of instruction (spec/30_encoding.md R112 to R121). The lemma of a
form takes the row of the opcode table as a hypothesis, so that each instruction only names its row (R125). -/

namespace Sys2Proof

open Machine (append_high append_low append_halves bind_of_ok)

section
variable {seg : Bool} {mode : BitVec 2} {op : BitVec 6} {f1 f0 : RegCode} {ws : List Word} {i : Instr}

/-! ### The groups of rows -/

theorem parse_low (hmode : mode ≠ 3) (hop : op.toNat < 0x30) :
    parse seg (opWord mode op f1 f0 :: ws) = parseLow seg mode op f1 f0 ws := by
  simp only [parse, fields_opWord, if_neg hmode, if_pos hop]

theorem parse_row3 (hop : 0x30 ≤ op.toNat) : parse seg (opWord 0 op f1 f0 :: ws) = parseRow3 seg op f1 f0 ws := by
  simp only [parse, fields_opWord, if_neg (Nat.not_lt.2 hop), if_true]
  rfl

theorem parse_row7 (hop : 0x30 ≤ op.toNat) : parse seg (opWord 1 op f1 f0 :: ws) = parseRow7 seg op f1 f0 ws := by
  simp only [parse, fields_opWord, if_neg (Nat.not_lt.2 hop), if_true]
  rfl

theorem parse_rowB (hop : 0x30 ≤ op.toNat) : parse seg (opWord 2 op f1 f0 :: ws) = parseRowB op f1 f0 ws := by
  simp only [parse, fields_opWord, if_neg (Nat.not_lt.2 hop)]
  rfl

/-- A row that turns a parsed value into an instruction. -/
theorem thenInstr_of_ok {α : Type} {x : Except DecodeError (Parsed Instr)} {p : Except DecodeError (Parsed α)} {f : α → Instr} {a : α}
    (hi : f a = i) (hrow : x = thenInstr p f) (hp : p = .ok (a, ws)) : x = .ok (i, ws) := by
  rw [hrow, hp, thenInstr_ok, hi]

/-! ### Memory and register operands -/

theorem parse_encRegMem {reg : RegCode → Option DecodeError} {f : RegMem → Instr} {m : RegMem} (hop : op.toNat < 0x30) (hi : f m = i)
    (hrow : ∀ mode f1 ws, parseLow seg mode op f1 f0 ws = thenInstr (takeRegMem seg mode f1 ws) f)
    (h : checkRegMem seg reg m = none) : parse seg (encRegMem op f0 m ++ ws) = .ok (i, ws) :=
  (parse_low m.mode_ne_three hop).trans (thenInstr_of_ok hi (hrow _ _ _) (takeRegMem_words h ws))

theorem parse_encStack {reg : RegCode → Option DecodeError} {f : RegMem → Instr} {m : RegMem} (hop : op.toNat < 0x30) (hi : f m = i)
    (hrow : ∀ mode f0 ws, parseLow seg mode op f1 f0 ws = thenInstr (takeRegMem seg mode f0 ws) f)
    (h : checkRegMem seg reg m = none) : parse seg (encStack op f1 m ++ ws) = .ok (i, ws) :=
  (parse_low m.mode_ne_three hop).trans (thenInstr_of_ok hi (hrow _ _ _) (takeRegMem_words h ws))

theorem parseBit_static {static : RegMem → BitVec 4 → Instr} {dynamic : RegCode → RegCode → Instr} (h : ¬(mode = 0 ∧ f1 = 0)) :
    parseBit static dynamic seg mode f1 f0 ws = thenInstr (takeRegMem seg mode f1 ws) fun m => static m f0 :=
  if_neg h

/-- A static bit form: its operand is not that of the dynamic form (R320). -/
theorem parse_encBit {reg : RegCode → Option DecodeError} {static : RegMem → BitVec 4 → Instr}
    {dynamic : RegCode → RegCode → Instr} {m : RegMem} (hop : op.toNat < 0x30) (hi : static m f0 = i)
    (hrow : ∀ mode f1 ws, parseLow seg mode op f1 f0 ws = parseBit static dynamic seg mode f1 f0 ws)
    (h : checkRegMem seg reg m = none) : parse seg (encRegMem op f0 m ++ ws) = .ok (i, ws) := by
  have hstatic : ¬(m.mode = 0 ∧ m.field = 0) := by
    cases m with
    | reg r => rintro ⟨⟨⟩⟩
    | mem m => exact m.not_immediate h
  exact (parse_low m.mode_ne_three hop).trans (thenInstr_of_ok (f := fun m => static m f0) hi ((hrow _ _ _).trans (parseBit_static hstatic))
    (takeRegMem_words h ws))

/-- A row whose mode 10 is another instruction. -/
theorem ite_mode_two {α : Type} {m : MemOp} {x y : α} : (if m.mode = 2 then x else y) = y := if_neg m.mode_ne_two

theorem parse_encMem {f : MemOp → Instr} {m : MemOp} (hop : op.toNat < 0x30) (hi : f m = i)
    (hrow : ∀ ws, parseLow seg m.mode op m.field f0 ws = thenInstr (takeMem seg m.mode m.field ws) f)
    (h : checkMemOp seg m = none) : parse seg (encMem op f0 m [] [] ++ ws) = .ok (i, ws) := by
  rw [encMem, List.nil_append, List.append_nil, List.cons_append, parse_low m.mode_ne_three hop]
  exact thenInstr_of_ok hi (hrow _) (takeMem_words h ws)

/-- A memory operand with an immediate behind it (R114). -/
theorem parse_encMemImm {n : Nat} {imm : List Word → Except DecodeError (Parsed (BitVec n))} {immWords : BitVec n → List Word}
    (hc : ImmCodec imm immWords) {f : MemOp → BitVec n → Instr} {m : MemOp} {v : BitVec n} (hop : op.toNat < 0x30) (hi : f m v = i)
    (hrow : ∀ ws, parseLow seg m.mode op m.field f0 ws = do
      let (m, ws) ← takeMem seg m.mode m.field ws
      let (v, ws) ← imm ws
      .ok (f m v, ws)) (h : checkMemOp seg m = none) :
    parse seg (encMem op f0 m [] (immWords v) ++ ws) = .ok (i, ws) := by
  rw [encMem, List.nil_append, List.cons_append, List.append_assoc, parse_low m.mode_ne_three hop, hrow, takeMem_words h, bind_of_ok]
  simp only [hc.words, bind_of_ok, hi]

/-- A memory operand behind a second word (R121). -/
theorem parse_encMultiple {f : RegCode → MemOp → BitVec 4 → Instr} {m : MemOp} {d : RegCode} {n : BitVec 4}
    (hop : op.toNat < 0x30) (hi : f d m n = i)
    (hrow : ∀ ws, parseLow seg m.mode op m.field f0 ws = do
      let (w, ws) ← takeWord ws
      let (m, ws) ← takeMem seg m.mode m.field ws
      if nib3 w = 0 ∧ nib1 w = 0 then .ok (f (nib2 w) m (nib0 w), ws) else undef) (h : checkMemOp seg m = none) :
    parse seg (encMem op f0 m [nibWord 0 d 0 n] [] ++ ws) = .ok (i, ws) := by
  rw [encMem, List.append_nil, List.cons_append, List.append_assoc, parse_low m.mode_ne_three hop, hrow]
  simp only [List.cons_append, List.nil_append, takeWord_cons, bind_of_ok, takeMem_words h, fields_nibWord, and_self, if_true, hi]

/-! ### Sources -/

section
variable {n : Nat} {imm : List Word → Except DecodeError (Parsed (BitVec n))} {immWords : BitVec n → List Word}

theorem parse_encSrc (hc : ImmCodec imm immWords) {reg : RegCode → Option DecodeError} {f : Src n → Instr} {src : Src n}
    (hop : op.toNat < 0x30) (hi : f src = i)
    (hrow : ∀ mode f1 ws, parseLow seg mode op f1 f0 ws = thenInstr (takeSrc imm seg mode f1 ws) f)
    (h : checkSrc seg reg src = none) : parse seg (encSrc immWords op f0 src ++ ws) = .ok (i, ws) := by
  cases src with
  | reg r => exact (parse_low (by decide) hop).trans (thenInstr_of_ok hi (hrow _ _ _) rfl)
  | imm v => exact (parse_low (by decide) hop).trans (thenInstr_of_ok hi (hrow _ _ _) (takeSrc_imm hc v ws))
  | mem m => exact (parse_low m.mode_ne_three hop).trans (thenInstr_of_ok hi (hrow _ _ _) (takeSrc_mem h ws))

end

/-- A base-address form (R113). -/
theorem parseRelBase_base {rel : Word → Instr} {base : RegCode → Word → Instr} {r : RegCode} {disp : Word} (hr : r ≠ 0)
    (hi : base r disp = i) : parseRelBase rel base r (disp :: ws) = .ok (i, ws) := by
  rw [← hi]
  exact congrArg (fun j => Except.ok (j, ws)) (if_neg hr)

theorem takeIndex_words (x : RegCode) : takeIndex (nibWord 0 x 0 0 :: ws) = .ok (x, ws) := by
  simp only [takeIndex, takeWord_cons, bind_of_ok, fields_nibWord, loByte_nibWord]
  rfl

/-- A load or store of memory: IR, DA and X in one row, BA in row 30 to 3F, BX in row 70 to 7F (R203, R205). -/
theorem parse_encLdMem {opB : BitVec 6} {f : LdMem → Instr} {dst : LdMem} (hop : op.toNat < 0x30) (hopB : 0x30 ≤ opB.toNat)
    (hi : f dst = i)
    (hmem : ∀ (m : MemOp) ws, parseLow seg m.mode op m.field f0 ws = thenInstr (takeMem seg m.mode m.field ws) fun m => f (.mem m))
    {rel : Word → Instr} (hbase : ∀ r ws, parseRow3 seg opB r f0 ws = parseRelBase rel (fun r d => f (.ba r d)) r ws)
    (hindex : ∀ r ws, parseRow7 seg opB r f0 ws = thenInstr (takeIndex ws) fun x => f (.bx r x)) (h : checkLdMem seg dst = none) :
    parse seg (encLdMem op opB f0 dst ++ ws) = .ok (i, ws) := by
  cases dst with
  | mem m => exact parse_encMem (f := fun m => f (.mem m)) hop hi (hmem m) h
  | ba r disp => exact (parse_row3 hopB).trans ((hbase _ _).trans (parseRelBase_base (checkAddrReg_none h) hi))
  | bx r x => exact (parse_row7 hopB).trans (thenInstr_of_ok (f := fun x => f (.bx r x)) hi (hindex _ _) (takeIndex_words x))


section
variable {n : Nat} {imm : List Word → Except DecodeError (Parsed (BitVec n))} {immWords : BitVec n → List Word}

/-- A load's source in the form that the decoder reads first. -/
def Src.toLdSrc : Src n → LdSrc n
  | .reg r => .reg r
  | .imm v => .imm v
  | .mem m => .mem (.mem m)

theorem takeLdSrc_of_takeSrc {src : Src n} {vs : List Word} (h : takeSrc imm seg mode f1 vs = .ok (src, ws)) :
    takeLdSrc imm seg mode f1 vs = .ok (src.toLdSrc, ws) := by
  rw [takeLdSrc, h]
  cases src <;> rfl

/-- The source of a load: R, IM, IR, DA and X in one row, BA in row 30 to 3F, BX in row 70 to 7F (R203). -/
theorem parse_encLdSrc (hc : ImmCodec imm immWords) {reg : RegCode → Option DecodeError} {opB : BitVec 6} {f : LdSrc n → Instr}
    {src : LdSrc n} {rel : Word → Instr} (hop : op.toNat < 0x30) (hopB : 0x30 ≤ opB.toNat) (hi : f src = i)
    (hrow : ∀ mode f1 ws, parseLow seg mode op f1 f0 ws = thenInstr (takeLdSrc imm seg mode f1 ws) f)
    (hbase : ∀ r ws, parseRow3 seg opB r f0 ws = parseRelBase rel (fun r d => f (.mem (.ba r d))) r ws)
    (hindex : ∀ r ws, parseRow7 seg opB r f0 ws = thenInstr (takeIndex ws) fun x => f (.mem (.bx r x)))
    (h : checkLdSrc seg reg src = none) : parse seg (encLdSrc immWords op opB f0 src ++ ws) = .ok (i, ws) := by
  cases src with
  | reg r => exact (parse_low (by decide) hop).trans (thenInstr_of_ok hi (hrow _ _ _) rfl)
  | imm v =>
    exact (parse_low (by decide) hop).trans (thenInstr_of_ok hi (hrow _ _ _) (takeLdSrc_of_takeSrc (takeSrc_imm hc v ws)))
  | mem m => cases m with
    | mem m =>
      refine (congrArg (fun l => parse seg (opWord m.mode op m.field f0 :: (l ++ ws))) (List.append_nil _)).trans ?_
      exact (parse_low m.mode_ne_three hop).trans (thenInstr_of_ok hi (hrow _ _ _) (takeLdSrc_of_takeSrc (takeSrc_mem h ws)))
    | ba r disp => exact (parse_row3 hopB).trans ((hbase _ _).trans (parseRelBase_base (checkAddrReg_none h) hi))
    | bx r x => exact (parse_row7 hopB).trans (thenInstr_of_ok (f := fun x => f (.mem (.bx r x))) hi (hindex _ _)
        (takeIndex_words x))

end

theorem parse_lda {d : RegCode} {src : LdaSrc} (h : checkLdaSrc seg src = none) :
    parse seg (encLda d src ++ ws) = .ok (.lda d src, ws) := by
  cases src with
  | da a => exact (parse_row7 (by decide)).trans (thenInstr_of_ok (f := fun a => .lda d (.da a)) rfl rfl (takeAddr_words h ws))
  | x a r =>
    obtain ⟨ha, hr⟩ := Option.or_eq_none_iff.1 h
    have hx : Instr.lda d (if r = 0 then .da a else .x a r) = .lda d (.x a r) := congrArg _ (if_neg (checkNonzero_none hr))
    exact (parse_row7 (by decide)).trans
      (thenInstr_of_ok (f := fun a => .lda d (if r = 0 then .da a else .x a r)) hx rfl (takeAddr_words ha ws))
  | ba r disp => exact (parse_row3 (by decide)).trans (parseRelBase_base (base := fun r v => .lda d (.ba r v)) (checkAddrReg_none h) rfl)
  | bx r x => exact (parse_row7 (by decide)).trans (thenInstr_of_ok (f := fun x => .lda d (.bx r x)) rfl rfl (takeIndex_words x))

theorem parse_ldps {src : MemOp} (h : checkMemOp seg src = none) : parse seg (encMem 0x39 0 src [] [] ++ ws) = .ok (.ldps src, ws) := by
  rw [encMem, List.nil_append, List.append_nil, List.cons_append]
  have hsrc := takeMem_words h ws
  cases src with
  | ir r => exact (parse_row3 (by decide)).trans (thenInstr_of_ok rfl rfl hsrc)
  | da a | x a r => exact (parse_row7 (by decide)).trans (thenInstr_of_ok rfl rfl hsrc)

/-! ### Block forms -/

theorem parseIoBlock_single {single repeating : RegCode → RegCode → RegCode → Instr} {d s r : RegCode} :
    parseIoBlock single repeating s (nibWord 0 r d 8 :: ws) = .ok (single d s r, ws) := by
  simp only [parseIoBlock, takeWord_cons, bind_of_ok, fields_nibWord, if_true]
  rfl

theorem parseIoBlock_repeating {single repeating : RegCode → RegCode → RegCode → Instr} {d s r : RegCode} :
    parseIoBlock single repeating s (nibWord 0 r d 0 :: ws) = .ok (repeating d s r, ws) := by
  simp only [parseIoBlock, takeWord_cons, bind_of_ok, fields_nibWord, if_true]
  rfl

theorem parseCompare_words {f : RegCode → RegCode → RegCode → CondCode → Instr} {d s r : RegCode} {cc : CondCode} :
    parseCompare f s (nibWord 0 r d cc :: ws) = .ok (f d s r cc, ws) := by
  simp only [parseCompare, takeWord_cons, bind_of_ok, fields_nibWord, if_true]

theorem parseTr_words {f : RegCode → RegCode → RegCode → Instr} {d s r t : RegCode} :
    parseTr f t d (nibWord 0 r s t :: ws) = .ok (f d s r, ws) := by
  simp only [parseTr, takeWord_cons, bind_of_ok, fields_nibWord, and_self, if_true]

/-! ### Static shifts (spec/46_rotate_shift.md R350) -/

theorem getLsbD_top {n : Nat} (v : BitVec (n + 1)) : v.getLsbD n = decide (2 ^ n ≤ v.toNat) := by
  have hmsb := BitVec.msb_eq_decide v
  rwa [BitVec.msb_eq_getLsbD_last] at hmsb

theorem checkLeft_none {width n : Nat} (h : checkLeft width n = none) : n ≤ width := by
  unfold checkLeft at h
  split at h
  · assumption
  · cases h

theorem checkRight_none {width n : Nat} (h : checkRight width n = none) : 1 ≤ n ∧ n ≤ width := by
  unfold checkRight at h
  split at h
  · assumption
  · cases h

section
variable {left right : Nat → Instr} {n : Nat}

theorem parseShift_left (hn : n ≤ 32) : parseShift false left right (BitVec.ofNat 16 n :: ws) = .ok (left n, ws) := by
  have hcount : (BitVec.ofNat 16 n).toNat = n := by rw [BitVec.toNat_ofNat]; omega
  have htop : (BitVec.ofNat 16 n).getLsbD 15 = false := by
    rw [getLsbD_top (n := 15), hcount]; exact decide_eq_false (by omega)
  simp only [parseShift, takeWord_cons, bind_of_ok, htop, hcount, Bool.false_eq_true, if_false]

theorem parseShift_right (hpos : 1 ≤ n) (hn : n ≤ 32) : parseShift false left right (-BitVec.ofNat 16 n :: ws) = .ok (right n, ws) := by
  have hcount : (-BitVec.ofNat 16 n).toNat = 65536 - n := by rw [BitVec.toNat_neg, BitVec.toNat_ofNat]; omega
  have htop : (-BitVec.ofNat 16 n).getLsbD 15 = true := by
    rw [getLsbD_top (n := 15), hcount]; exact decide_eq_true (by omega)
  have hback : 65536 - (65536 - n) = n := by omega
  simp only [parseShift, takeWord_cons, bind_of_ok, htop, hcount, hback, Bool.false_eq_true, if_false, if_true]

theorem parseShift_left_byte (hn : n ≤ 8) : parseShift true left right (BitVec.ofNat 16 n :: ws) = .ok (left n, ws) := by
  have hlow : (loByte (BitVec.ofNat 16 n)).toNat = n := by
    simp only [loByte, BitVec.extractLsb'_toNat, BitVec.toNat_ofNat, Nat.shiftRight_zero]; omega
  have hhigh : hiByte (BitVec.ofNat 16 n) = 0 := eq_ofNat_of_toNat (k := 0) (by
    simp only [hiByte, BitVec.extractLsb'_toNat, BitVec.toNat_ofNat, Nat.shiftRight_eq_div_pow]; omega)
  have htop : (loByte (BitVec.ofNat 16 n)).getLsbD 7 = false := by
    rw [getLsbD_top (n := 7), hlow]; exact decide_eq_false (by omega)
  simp only [parseShift, takeWord_cons, bind_of_ok, htop, hlow, hhigh, Bool.false_eq_true, if_false, if_true]

theorem parseShift_right_byte (hpos : 1 ≤ n) (hn : n ≤ 8) :
    parseShift true left right (-BitVec.ofNat 16 n :: ws) = .ok (right n, ws) := by
  have hlow : (loByte (-BitVec.ofNat 16 n)).toNat = 256 - n := by
    simp only [loByte, BitVec.extractLsb'_toNat, BitVec.toNat_neg, BitVec.toNat_ofNat, Nat.shiftRight_zero]; omega
  have hhigh : hiByte (-BitVec.ofNat 16 n) = 0xFF := eq_ofNat_of_toNat (k := 0xFF) (by
    simp only [hiByte, BitVec.extractLsb'_toNat, BitVec.toNat_neg, BitVec.toNat_ofNat, Nat.shiftRight_eq_div_pow]; omega)
  have htop : (loByte (-BitVec.ofNat 16 n)).getLsbD 7 = true := by
    rw [getLsbD_top (n := 7), hlow]; exact decide_eq_true (by omega)
  have hback : 256 - (256 - n) = n := by omega
  simp only [parseShift, takeWord_cons, bind_of_ok, htop, hlow, hhigh, hback, or_true, if_true]

end

/-! ### Compact formats -/

theorem parse_compact {w : Word} (h : (nib3 w).extractLsb' 2 2 = 3) : parse seg (w :: ws) = parseCompact w ws := by
  have hmode : modeOf w = 3 := (Machine.extractLsb'_of_extractLsb' w 12 4 2 2 (by decide)).symm.trans h
  simp only [parse, hmode, if_true]

theorem parse_ldbk (d : RegCode) (v : BitVec 8) : parse seg (encode (.ldbk d v) ++ ws) = .ok (.ldbk d v, ws) := by
  obtain ⟨h3, h2, hlow⟩ : nib3 (0xC#4 ++ d ++ v) = 0xC#4 ∧ nib2 (0xC#4 ++ d ++ v) = d ∧ loByte (0xC#4 ++ d ++ v) = v :=
    fields_of_append_three _ d v
  refine (parse_compact (by rw [h3]; rfl)).trans ?_
  rw [parseCompact, h3, h2, hlow]
  rfl

theorem parse_jr (cc : CondCode) (disp : BitVec 8) : parse seg (encode (.jr cc disp) ++ ws) = .ok (.jr cc disp, ws) := by
  obtain ⟨h3, h2, hlow⟩ : nib3 (0xE#4 ++ cc ++ disp) = 0xE#4 ∧ nib2 (0xE#4 ++ cc ++ disp) = cc ∧
      loByte (0xE#4 ++ cc ++ disp) = disp :=
    fields_of_append_three _ cc disp
  refine (parse_compact (by rw [h3]; rfl)).trans ?_
  rw [parseCompact, h3, h2, hlow]
  rfl

theorem parse_calr (disp : BitVec 12) : parse seg (encode (.calr disp) ++ ws) = .ok (.calr disp, ws) := by
  have h3 : nib3 (0xD#4 ++ disp) = 0xD#4 := append_high 0xD#4 disp
  have hdisp : (0xD#4 ++ disp).extractLsb' 0 12 = disp := append_low 0xD#4 disp
  refine (parse_compact (by rw [h3]; rfl)).trans ?_
  rw [parseCompact, h3, hdisp]
  rfl

/-- DJNZ and DBJNZ differ in bit 7 (R306). -/
theorem parse_loop (r : RegCode) (form : BitVec 1) (disp : BitVec 7) :
    parse seg ((0xF#4 ++ r ++ form ++ disp) :: ws) = .ok (if form == 1#1 then .djnz r disp else .dbjnz r disp, ws) := by
  obtain ⟨h3, h2, h7, hdisp⟩ : nib3 (0xF#4 ++ r ++ form ++ disp) = 0xF#4 ∧ nib2 (0xF#4 ++ r ++ form ++ disp) = r ∧
      (0xF#4 ++ r ++ form ++ disp).extractLsb' 7 1 = form ∧ (0xF#4 ++ r ++ form ++ disp).extractLsb' 0 7 = disp :=
    fields_of_append_four _ r form disp
  refine (parse_compact (by rw [h3]; rfl)).trans ?_
  rw [parseCompact, h3, h2, BitVec.getLsbD_eq_extractLsb', h7, hdisp]
  cases form == 1#1 <;> rfl

/-! ### One and two words -/

section
variable {d s r t o : BitVec 4}

theorem parse_blockWord (h : parseBlockWord s o (nibWord 0 r d t :: ws) = .ok (i, ws)) :
    parse seg (encBlock 2 0x3B s o r d t ++ ws) = .ok (i, ws) :=
  (parse_rowB (by decide)).trans h

theorem parse_blockByte (h : parseBlockByte s o (nibWord 0 r d t :: ws) = .ok (i, ws)) :
    parse seg (encBlock 2 0x3A s o r d t ++ ws) = .ok (i, ws) :=
  (parse_rowB (by decide)).trans h

theorem parse_translate (h : parseTranslate d o (nibWord 0 r s t :: ws) = .ok (i, ws)) :
    parse seg (encBlock 2 0x38 d o r s t ++ ws) = .ok (i, ws) :=
  (parse_rowB (by decide)).trans h

theorem parse_ioWord (h : parseIoWord s o (nibWord 0 r d t :: ws) = .ok (i, ws)) :
    parse seg (encBlock 0 0x3B s o r d t ++ ws) = .ok (i, ws) :=
  (parse_row3 (by decide)).trans h

theorem parse_ioByte (h : parseIoByte s o (nibWord 0 r d t :: ws) = .ok (i, ws)) :
    parse seg (encBlock 0 0x3A s o r d t ++ ws) = .ok (i, ws) :=
  (parse_row3 (by decide)).trans h

end

/-- A static shift: its count word behind the first word. -/
theorem parse_shiftWord {d o : BitVec 4} {c : Word} (h : parseShiftWord d o (c :: ws) = .ok (i, ws)) :
    parse seg ([opWord 2 0x33 d o, c] ++ ws) = .ok (i, ws) :=
  (parse_rowB (by decide)).trans h

theorem parse_shiftByte {d o : BitVec 4} {c : Word} (h : parseShiftByte d o (c :: ws) = .ok (i, ws)) :
    parse seg ([opWord 2 0x32 d o, c] ++ ws) = .ok (i, ws) :=
  (parse_rowB (by decide)).trans h

/-- The dynamic forms of the bit instructions (R321). -/
theorem parse_encDyn_bit {static : RegMem → BitVec 4 → Instr} {dynamic : RegCode → RegCode → Instr} {d s : RegCode}
    (hop : op.toNat < 0x30) (hi : dynamic d s = i)
    (hrow : ∀ mode f1 f0 ws, parseLow seg mode op f1 f0 ws = parseBit static dynamic seg mode f1 f0 ws) :
    parse seg (encDyn 0 op 0 s d ++ ws) = .ok (i, ws) :=
  (parse_low (by decide) hop).trans ((hrow _ _ _ _).trans (thenInstr_of_ok (f := fun d => dynamic d s) hi rfl (takeIndex_words d)))

/-- The dynamic shifts (spec/46_rotate_shift.md R356, R357). -/
theorem parse_encDyn_shift {f : RegCode → Instr} {d o s : RegCode} (hop : 0x30 ≤ op.toNat) (hi : f s = i)
    (hrow : ∀ ws, parseRowB op d o ws = thenInstr (takeIndex ws) f) : parse seg (encDyn 2 op d o s ++ ws) = .ok (i, ws) :=
  (parse_rowB hop).trans (thenInstr_of_ok hi (hrow _) (takeIndex_words s))

end

/-- The decoder's parser reads back every well-formed instruction (R111). -/
theorem parse_encode {seg : Bool} {i : Instr} (h : wfError seg i = none) (ws : List Word) : parse seg (encode i ++ ws) = .ok (i, ws) := by
  cases i with
  | clr | clrb | com | comb | neg | negb | test | testb | testl | tset | tsetb | ex | exb =>
    exact parse_encRegMem (by decide) rfl (fun _ _ _ => rfl) h
  | dec dst n => exact parse_encRegMem (f := fun m => .dec m n) (by decide) rfl (fun _ _ _ => rfl) h
  | decb dst n => exact parse_encRegMem (f := fun m => .decb m n) (by decide) rfl (fun _ _ _ => rfl) h
  | inc dst n => exact parse_encRegMem (f := fun m => .inc m n) (by decide) rfl (fun _ _ _ => rfl) h
  | incb dst n => exact parse_encRegMem (f := fun m => .incb m n) (by decide) rfl (fun _ _ _ => rfl) h
  | push | pushl => exact parse_encStack (by decide) rfl (fun _ _ _ => rfl) (Option.or_eq_none_iff.1 h).2
  | pop dst sp => exact parse_encStack (f := fun m => .pop m sp) (by decide) rfl (fun _ _ _ => rfl) (Option.or_eq_none_iff.1 h).2
  | popl dst sp => exact parse_encStack (f := fun m => .popl m sp) (by decide) rfl (fun _ _ _ => rfl) (Option.or_eq_none_iff.1 h).2
  | bit => exact parse_encBit (dynamic := .bitDyn) (by decide) rfl (fun _ _ _ => rfl) h
  | res => exact parse_encBit (dynamic := .resDyn) (by decide) rfl (fun _ _ _ => rfl) h
  | set => exact parse_encBit (dynamic := .setDyn) (by decide) rfl (fun _ _ _ => rfl) h
  | bitb => exact parse_encBit (dynamic := .bitbDyn) (by decide) rfl (fun _ _ _ => rfl) (Option.or_eq_none_iff.1 h).1
  | resb => exact parse_encBit (dynamic := .resbDyn) (by decide) rfl (fun _ _ _ => rfl) (Option.or_eq_none_iff.1 h).1
  | setb => exact parse_encBit (dynamic := .setbDyn) (by decide) rfl (fun _ _ _ => rfl) (Option.or_eq_none_iff.1 h).1
  | call => exact parse_encMem (by decide) rfl (fun _ => rfl) h
  | jp => exact parse_encMem (by decide) rfl (fun _ => ite_mode_two) h
  | cpbMemImm => exact parse_encMemImm immCodec_byte (by decide) rfl (fun _ => ite_mode_two) h
  | ldbStoreImm => exact parse_encMemImm immCodec_byte (by decide) rfl (fun _ => rfl) h
  | cpMemImm | ldStoreImm => exact parse_encMemImm immCodec_word (by decide) rfl (fun _ => ite_mode_two) h
  | ldmLoad => exact parse_encMultiple (by decide) rfl (fun _ => rfl) h
  | ldmStore dst s n => exact parse_encMultiple (f := fun s m n => .ldmStore m s n) (by decide) rfl (fun _ => rfl) h
  | add | sub | or | and | xor | cp => exact parse_encSrc immCodec_word (by decide) rfl (fun _ _ _ => rfl) h
  | mult | div => exact parse_encSrc immCodec_word (by decide) rfl (fun _ _ _ => rfl) (Option.or_eq_none_iff.1 h).2
  | addb | subb | orb | andb | xorb | cpb => exact parse_encSrc immCodec_byte (by decide) rfl (fun _ _ _ => rfl) h
  | addl | subl | cpl | multl | divl => exact parse_encSrc immCodec_long (by decide) rfl (fun _ _ _ => rfl) (Option.or_eq_none_iff.1 h).2
  | ld d =>
    exact parse_encLdSrc immCodec_word (rel := .ldr d) (by decide) (by decide) rfl (fun _ _ _ => rfl) (fun _ _ => rfl) (fun _ _ => rfl) h
  | ldb d =>
    exact parse_encLdSrc immCodec_byte (rel := .ldrb d) (by decide) (by decide) rfl (fun _ _ _ => rfl) (fun _ _ => rfl) (fun _ _ => rfl) h
  | ldl d =>
    exact parse_encLdSrc immCodec_long (rel := .ldrl d) (by decide) (by decide) rfl (fun _ _ _ => rfl) (fun _ _ => rfl) (fun _ _ => rfl)
      (Option.or_eq_none_iff.1 h).2
  | ldStore dst s =>
    exact parse_encLdMem (f := fun m => .ldStore m s) (rel := fun d => .ldrStore d s) (by decide) (by decide) rfl
      (fun _ _ => ite_mode_two) (fun _ _ => rfl) (fun _ _ => rfl) h
  | ldbStore dst s =>
    exact parse_encLdMem (f := fun m => .ldbStore m s) (rel := fun d => .ldrbStore d s) (by decide) (by decide) rfl
      (fun _ _ => ite_mode_two) (fun _ _ => rfl) (fun _ _ => rfl) h
  | ldlStore dst s =>
    exact parse_encLdMem (f := fun m => .ldlStore m s) (rel := fun d => .ldrlStore d s) (by decide) (by decide) rfl
      (fun _ _ => rfl) (fun _ _ => rfl) (fun _ _ => rfl) (Option.or_eq_none_iff.1 h).1
  | lda => exact parse_lda (Option.or_eq_none_iff.1 h).2
  | ldps => exact parse_ldps h
  | pushImm | comflg | resflg | setflg | nop | tcc | tccb | ret | ldctlbRead | ldctlbWrite =>
    exact (parse_low (by decide) (by decide)).trans rfl
  | ldar | ldr | ldrb | ldrl | ldrStore | ldrbStore | ldrlStore | inReg | inbReg | outReg | outbReg
  | inPort | inbPort | outPort | outbPort | sin | sinb | sout | soutb => exact (parse_row3 (by decide)).trans rfl
  | iret | halt | mbit | mreq | mres | mset => exact (parse_row7 (by decide)).trans rfl
  | adc | adcb | sbc | sbcb | dab | exts | extsb | extsl | ldk | rldb | rrdb => exact (parse_rowB (by decide)).trans rfl
  | rl _ two | rlb _ two | rlc _ two | rlcb _ two | rr _ two | rrb _ two | rrc _ two | rrcb _ two =>
    cases two <;> exact (parse_rowB (by decide)).trans rfl
  | sda | sdab | sdal | sdl | sdlb | sdll => exact parse_encDyn_shift (by decide) rfl fun _ => rfl
  | bitDyn => exact parse_encDyn_bit (static := .bit) (by decide) rfl fun _ _ _ _ => rfl
  | bitbDyn => exact parse_encDyn_bit (static := .bitb) (by decide) rfl fun _ _ _ _ => rfl
  | resDyn => exact parse_encDyn_bit (static := .res) (by decide) rfl fun _ _ _ _ => rfl
  | resbDyn => exact parse_encDyn_bit (static := .resb) (by decide) rfl fun _ _ _ _ => rfl
  | setDyn => exact parse_encDyn_bit (static := .set) (by decide) rfl fun _ _ _ _ => rfl
  | setbDyn => exact parse_encDyn_bit (static := .setb) (by decide) rfl fun _ _ _ _ => rfl
  | cpd | cpdr | cpi | cpir | cpsd | cpsdr | cpsi | cpsir =>
    exact parse_blockWord (by unfold parseBlockWord; exact parseCompare_words)
  | cpdb | cpdrb | cpib | cpirb | cpsdb | cpsdrb | cpsib | cpsirb =>
    exact parse_blockByte (by unfold parseBlockByte; exact parseCompare_words)
  | ldd | ldi => exact parse_blockWord (by unfold parseBlockWord; exact parseIoBlock_single)
  | lddr | ldir => exact parse_blockWord (by unfold parseBlockWord; exact parseIoBlock_repeating)
  | lddb | ldib => exact parse_blockByte (by unfold parseBlockByte; exact parseIoBlock_single)
  | lddrb | ldirb => exact parse_blockByte (by unfold parseBlockByte; exact parseIoBlock_repeating)
  | trdb | trdrb | trib | trirb | trtdb | trtdrb | trtib | trtirb => exact parse_translate (by unfold parseTranslate; exact parseTr_words)
  | ind | ini | outd | outi | sind | sini | soutd | souti => exact parse_ioWord (by unfold parseIoWord; exact parseIoBlock_single)
  | indr | inir | otdr | otir | sindr | sinir | sotdr | sotir => exact parse_ioWord (by unfold parseIoWord; exact parseIoBlock_repeating)
  | indb | inib | outdb | outib | sindb | sinib | soutdb | soutib => exact parse_ioByte (by unfold parseIoByte; exact parseIoBlock_single)
  | indrb | inirb | otdrb | otirb | sindrb | sinirb | sotdrb | sotirb =>
    exact parse_ioByte (by unfold parseIoByte; exact parseIoBlock_repeating)
  | sla _ n | sll _ n =>
    have hn := checkLeft_none h
    exact parse_shiftWord (by unfold parseShiftWord; exact parseShift_left (by omega))
  | slal _ n | slll _ n =>
    have hn := checkLeft_none (Option.or_eq_none_iff.1 h).2
    exact parse_shiftWord (by unfold parseShiftWord; exact parseShift_left hn)
  | slab _ n | sllb _ n =>
    have hn := checkLeft_none h
    exact parse_shiftByte (by unfold parseShiftByte; exact parseShift_left_byte hn)
  | sra _ n | srl _ n =>
    obtain ⟨hpos, hn⟩ := checkRight_none h
    exact parse_shiftWord (by unfold parseShiftWord; exact parseShift_right hpos (by omega))
  | sral _ n | srll _ n =>
    obtain ⟨hpos, hn⟩ := checkRight_none (Option.or_eq_none_iff.1 h).2
    exact parse_shiftWord (by unfold parseShiftWord; exact parseShift_right hpos hn)
  | srab _ n | srlb _ n =>
    obtain ⟨hpos, hn⟩ := checkRight_none h
    exact parse_shiftByte (by unfold parseShiftByte; exact parseShift_right_byte hpos hn)
  | di vi nvi =>
    rw [(encode_enables vi nvi).1]
    cases vi <;> cases nvi <;> exact (parse_row7 (by decide)).trans rfl
  | ei vi nvi =>
    rw [(encode_enables vi nvi).2]
    cases vi <;> cases nvi <;> exact (parse_row7 (by decide)).trans rfl
  | ldctlRead d c =>
    rw [(encode_ldctl c d).1]
    cases c <;> exact (parse_row7 (by decide)).trans rfl
  | ldctlWrite c s =>
    rw [(encode_ldctl c s).2]
    cases c <;> exact (parse_row7 (by decide)).trans rfl
  | sc v =>
    rw [encode_sc]
    exact (parse_row7 (by decide)).trans (congrArg (fun v => Except.ok (Instr.sc v, ws)) (append_halves (n := 4) (m := 4) v))
  | ldbk d v => exact parse_ldbk d v
  | jr cc disp => exact parse_jr cc disp
  | calr disp => exact parse_calr disp
  | djnz r disp => exact parse_loop r 1#1 disp
  | dbjnz r disp => exact parse_loop r 0#1 disp

/-- Settles O1: the parser reads the words back, and the checks on the register fields are those of well-formedness. -/
theorem encodeDecodeRoundTrip : Obligations.EncodeDecodeRoundTrip := by
  intro seg i rest hwf
  have h : wfError seg i = none := Option.isNone_iff_eq_none.1 hwf
  rw [decode, parse_encode h, bind_of_ok]
  simp only [h]

end Sys2Proof
end

section
/-! SUPPORT. The first word of an instruction tells whether it is a system instruction, and with the second how long a system instruction is
(spec/60_exceptions.md R504, R505; spec/30_encoding.md R111). -/

namespace Sys2Proof

open Machine (isSystem)

section
variable {seg : Bool} {mode : BitVec 2} {op : BitVec 6} {f1 f0 : RegCode} {w x : Word} {rest : List Word} {i : Instr}

/-! ### First words of user instructions -/

/-- The upper bytes of system instructions are 39 to 3F and 79 to 7D (R504). -/
theorem privilegedFirstWord_of_hiByte (h : (hiByte w).toNat % 64 < 0x39 ∨ 0x7E ≤ (hiByte w).toNat) : privilegedFirstWord w = false := by
  unfold privilegedFirstWord
  split
  any_goals omega
  rfl

theorem toNat_hiByte_opWord : (hiByte (opWord mode op f1 f0)).toNat = 64 * mode.toNat + op.toNat := by
  rw [hiByte_opWord, BitVec.toNat_append, Nat.shiftLeft_eq, Nat.mul_comm, ← Nat.two_pow_add_eq_or_of_lt op.isLt]

theorem privileged_low (hop : op.toNat < 0x39) : privilegedFirstWord (opWord mode op f1 f0) = false :=
  privilegedFirstWord_of_hiByte (.inl (by rw [toNat_hiByte_opWord]; omega))

theorem privileged_rowB : privilegedFirstWord (opWord 2 op f1 f0) = false :=
  privilegedFirstWord_of_hiByte (.inr (by rw [toNat_hiByte_opWord]; exact Nat.le_add_right_of_le (by decide)))

/-- The compact formats (R113). -/
theorem privileged_compact {k : BitVec 4} (h : nib3 w = k) (hk : 0xC ≤ k.toNat) : privilegedFirstWord w = false := by
  subst h
  refine privilegedFirstWord_of_hiByte (.inr ?_)
  simp only [nib3, hiByte, BitVec.extractLsb'_toNat, Nat.shiftRight_eq_div_pow] at hk ⊢
  omega

theorem privileged_src {n : Nat} {imm : BitVec n → List Word} (hop : op.toNat < 0x39) (src : Src n) :
    privilegedFirstWord ((encSrc imm op f0 src).headD 0) = false := by
  cases src <;> exact privileged_low hop

theorem privileged_ldMem {opB : BitVec 6} (hop : op.toNat < 0x39) (hopB : opB.toNat < 0x39) (m : LdMem) :
    privilegedFirstWord ((encLdMem op opB f0 m).headD 0) = false := by
  cases m with
  | mem => exact privileged_low hop
  | ba | bx => exact privileged_low hopB

theorem privileged_ldSrc {n : Nat} {imm : BitVec n → List Word} {opB : BitVec 6} (hop : op.toNat < 0x39) (hopB : opB.toNat < 0x39)
    (src : LdSrc n) : privilegedFirstWord ((encLdSrc imm op opB f0 src).headD 0) = false := by
  cases src with
  | reg | imm => exact privileged_low hop
  | mem m => exact privileged_ldMem hop hopB m

theorem privileged_user (h : isSystem i = false) : privilegedFirstWord (firstWord i) = false := by
  cases i with
  | clr | clrb | com | comb | neg | negb | test | testb | testl | tset | tsetb | ex | exb | dec | decb | inc | incb
  | push | pushl | pop | popl | pushImm | bit | bitb | res | resb | set | setb | bitDyn | bitbDyn | resDyn | resbDyn | setDyn | setbDyn
  | call | jp | ret | cpMemImm | cpbMemImm | ldStoreImm | ldbStoreImm | ldmLoad | ldmStore | tcc | tccb | comflg | resflg | setflg | nop
  | ldctlbRead | ldctlbWrite | ldar | ldr | ldrb | ldrl | ldrStore | ldrbStore | ldrlStore => exact privileged_low (by decide)
  | add _ src | sub _ src | or _ src | and _ src | xor _ src | cp _ src | mult _ src | div _ src
  | addb _ src | subb _ src | orb _ src | andb _ src | xorb _ src | cpb _ src
  | addl _ src | subl _ src | cpl _ src | multl _ src | divl _ src => exact privileged_src (by decide) src
  | ld _ src | ldb _ src | ldl _ src => exact privileged_ldSrc (by decide) (by decide) src
  | ldStore dst | ldbStore dst | ldlStore dst => exact privileged_ldMem (by decide) (by decide) dst
  | lda _ src => cases src <;> exact privileged_low (by decide)
  | adc | adcb | sbc | sbcb | dab | exts | extsb | extsl | ldk | rldb | rrdb | rl | rlb | rlc | rlcb | rr | rrb | rrc | rrcb
  | sla | slab | slal | sll | sllb | slll | sra | srab | sral | srl | srlb | srll | sda | sdab | sdal | sdl | sdlb | sdll
  | cpd | cpdb | cpdr | cpdrb | cpi | cpib | cpir | cpirb | cpsd | cpsdb | cpsdr | cpsdrb | cpsi | cpsib | cpsir | cpsirb
  | ldd | lddb | lddr | lddrb | ldi | ldib | ldir | ldirb | trdb | trdrb | trib | trirb | trtdb | trtdrb | trtib | trtirb =>
    exact privileged_rowB
  | ldbk d v => exact privileged_compact (fields_of_append_three 0xC#4 d v).1 (by decide)
  | jr cc disp => exact privileged_compact (fields_of_append_three 0xE#4 cc disp).1 (by decide)
  | calr disp => exact privileged_compact (Machine.append_high 0xD#4 disp) (by decide)
  | djnz r disp => exact privileged_compact (fields_of_append_four 0xF#4 r 1#1 disp).1 (by decide)
  | dbjnz r disp => exact privileged_compact (fields_of_append_four 0xF#4 r 0#1 disp).1 (by decide)
  | sc v =>
    refine privilegedFirstWord_of_hiByte (.inr ?_)
    rw [show hiByte (firstWord (.sc v)) = 0x7F from Machine.append_high 0x7F#8 v]
    decide
  | _ => cases h

/-! ### First words of system instructions -/

/-- The groups 3A and 3B: the block forms, whose port register is not 0, and the forms with a port word (spec/48_input_output.md R411). -/
theorem privileged_io (hop : op = 0x3A ∨ op = 0x3B)
    (h : (f0.toNat < 4 ∨ 8 ≤ f0.toNat ∧ f0.toNat < 12) ∧ f1 ≠ 0 ∨ 4 ≤ f0.toNat ∧ f0.toNat < 8) :
    privilegedFirstWord (opWord 0 op f1 f0) = true := by
  have hgroup : privilegedFirstWord (opWord 0 op f1 f0) =
      (decide (f0.toNat < 4) && f1 != 0 || decide (4 ≤ f0.toNat) && decide (f0.toNat < 8) ||
        decide (8 ≤ f0.toNat) && decide (f0.toNat < 12) && f1 != 0) := by
    rcases hop with rfl | rfl <;> simp only [privilegedFirstWord, hiByte_opWord, fields_opWord] <;> rfl
  rw [hgroup]
  simp only [Bool.or_eq_true, Bool.and_eq_true, decide_eq_true_iff, bne_iff_ne]
  tauto

/-- The forms with the port in a register (spec/48_input_output.md R413, R415). -/
theorem privileged_ioReg (hop : op = 0x3C ∨ op = 0x3D ∨ op = 0x3E ∨ op = 0x3F) (h : f1 ≠ 0) :
    privilegedFirstWord (opWord 0 op f1 f0) = true := by
  have hgroup : privilegedFirstWord (opWord 0 op f1 f0) = (f1 != 0) := by
    rcases hop with rfl | rfl | rfl | rfl <;> simp only [privilegedFirstWord, hiByte_opWord, fields_opWord] <;> rfl
  rw [hgroup]
  exact bne_iff_ne.2 h

theorem privileged_mreq (d : RegCode) : privilegedFirstWord (firstWord (.mreq d)) = true := by
  change privilegedFirstWord (opWord 1 0x3B d 0xD) = true
  simp only [privilegedFirstWord, hiByte_opWord, fields_opWord]
  exact Bool.or_true _

theorem privileged_ldctl (c : Ctl) (r : RegCode) :
    privilegedFirstWord (firstWord (.ldctlRead r c)) = true ∧ privilegedFirstWord (firstWord (.ldctlWrite c r)) = true := by
  obtain ⟨hread, hwrite⟩ := encode_ldctl c r
  simp only [firstWord, hread, hwrite, List.headD_cons, privilegedFirstWord, hiByte_opWord, fields_opWord]
  cases c <;> exact ⟨rfl, rfl⟩

theorem privileged_enables (vi nvi : Bool) :
    privilegedFirstWord (firstWord (.di vi nvi)) = true ∧ privilegedFirstWord (firstWord (.ei vi nvi)) = true := by
  cases vi <;> cases nvi <;> exact ⟨rfl, rfl⟩

theorem privileged_ldps {src : MemOp} (h : checkMemOp seg src = none) : privilegedFirstWord (firstWord (.ldps src)) = true := by
  have hreg (r : RegCode) : privilegedFirstWord (opWord 0 0x39 r 0) = (r != 0) := by
    simp only [privilegedFirstWord, hiByte_opWord, fields_opWord]
    rfl
  have haddr (r : RegCode) : privilegedFirstWord (opWord 1 0x39 r 0) = true := by
    simp only [privilegedFirstWord, hiByte_opWord, fields_opWord]
    rfl
  cases src with
  | ir r => exact (hreg r).trans (bne_iff_ne.2 (checkAddrReg_none h))
  | da => exact haddr 0
  | x _ r => exact haddr r

theorem privileged_system (hsys : isSystem i = true) (h : wfError seg i = none) : privilegedFirstWord (firstWord i) = true := by
  cases i with
  | iret | halt | mbit | mres | mset => rfl
  | mreq d => exact privileged_mreq d
  | di vi nvi => exact (privileged_enables vi nvi).1
  | ei vi nvi => exact (privileged_enables vi nvi).2
  | ldctlRead r c => exact (privileged_ldctl c r).1
  | ldctlWrite c r => exact (privileged_ldctl c r).2
  | ldps => exact privileged_ldps h
  | inReg | inbReg | outReg | outbReg => exact privileged_ioReg (by decide) (checkNonzero_none h)
  | inPort | inbPort | outPort | outbPort | sin | sinb | sout | soutb => exact privileged_io (by decide) (.inr (by decide))
  | ind | indb | indr | indrb | ini | inib | inir | inirb | sind | sindb | sindr | sindrb | sini | sinib | sinir | sinirb =>
    exact privileged_io (by decide) (.inl ⟨by decide, checkNonzero_none (Option.or_eq_none_iff.1 h).2⟩)
  | outd | outdb | otdr | otdrb | outi | outib | otir | otirb | soutd | soutdb | sotdr | sotdrb | souti | soutib | sotir | sotirb =>
    exact privileged_io (by decide) (.inl ⟨by decide, checkAddrReg_none (Option.or_eq_none_iff.1 h).2⟩)
  | _ => cases hsys

/-! ### Lengths of system instructions -/

theorem privilegedLength_two (hop : op = 0x3A ∨ op = 0x3B) : privilegedLength seg (opWord 0 op f1 f0) x = 2 := by
  rcases hop with rfl | rfl <;> simp only [privilegedLength, hiByte_opWord] <;> rfl

/-- LDPS with an address: its form bit and the mode say how long the address is (R118). -/
theorem privilegedLength_ldps : privilegedLength seg (opWord 1 0x39 f1 f0) x = if seg && x.getLsbD 15 then 3 else 2 := by
  simp only [privilegedLength, hiByte_opWord]
  rfl

theorem privilegedLength_one (hop : mode ++ op ≠ (0x3A : Byte) ∧ mode ++ op ≠ (0x3B : Byte) ∧ mode ++ op ≠ (0x79 : Byte)) :
    privilegedLength seg (opWord mode op f1 f0) x = 1 := by
  obtain ⟨h3A, h3B, h79⟩ := hop
  simp only [privilegedLength, hiByte_opWord]
  split
  next h => exact absurd (eq_ofNat_of_toNat h) h3A
  next h => exact absurd (eq_ofNat_of_toNat h) h3B
  next h => exact absurd (eq_ofNat_of_toNat h) h79
  next => rfl

theorem length_addrWords {a : Addr} (h : checkAddr seg a = none) :
    (if seg && ((a.words ++ rest).headD 0).getLsbD 15 then 3 else 2) = a.words.length + 1 := by
  cases a with
  | plain off => cases seg with
    | false => rfl
    | true => cases h
  | short n off => cases seg with
    | false => cases h
    | true =>
      have hform : ((0#1 ++ n ++ off : Word)).getLsbD 15 = false := (fields_segWord 0#1 n off).1
      change (if (0#1 ++ n ++ off : Word).getLsbD 15 then 3 else 2) = 2
      rw [hform]
      rfl
  | long n off => cases seg with
    | false => cases h
    | true =>
      have hform : ((1#1 ++ n ++ 0#8 : Word)).getLsbD 15 = true := (fields_segWord 1#1 n 0#8).1
      change (if (1#1 ++ n ++ 0#8 : Word).getLsbD 15 then 3 else 2) = 3
      rw [hform]
      rfl

theorem privilegedLength_system (hsys : isSystem i = true) (h : wfError seg i = none) :
    privilegedLength seg (firstWord i) (((encode i).tail ++ rest).headD 0) = lengthOf i := by
  cases i with
  | ldps src => 
    have hwords : encode (.ldps src) = opWord src.mode 0x39 src.field 0 :: src.words := by
      simp [encode, encMem]
    rw [firstWord, lengthOf, hwords]
    cases src with
    | ir r => exact privilegedLength_one (mode := 0) (by decide)
    | da a => exact privilegedLength_ldps.trans (length_addrWords h)
    | x a r => exact privilegedLength_ldps.trans (length_addrWords (Option.or_eq_none_iff.1 h).1)
  | di vi nvi | ei vi nvi => cases vi <;> cases nvi <;> rfl
  | ldctlRead r c | ldctlWrite c r =>
    obtain ⟨hread, hwrite⟩ := encode_ldctl c r
    simp only [firstWord, lengthOf, hread, hwrite]
    exact privilegedLength_one (by decide)
  | iret | halt | mbit | mres | mset | mreq | inReg | inbReg | outReg | outbReg => exact privilegedLength_one (by decide)
  | inPort | inbPort | outPort | outbPort | sin | sinb | sout | soutb
  | ind | indb | indr | indrb | ini | inib | inir | inirb | sind | sindb | sindr | sindrb | sini | sinib | sinir | sinirb
  | outd | outdb | otdr | otdrb | outi | outib | otir | otirb | soutd | soutdb | sotdr | sotdrb | souti | soutib | sotir | sotirb =>
    exact privilegedLength_two (by decide)
  | _ => cases hsys

end

/-- Settles O3: the first word of what decodes is that of the instruction, and a system instruction is spelled as it is encoded. -/
theorem privilegedFirstWordsAreSystem : Obligations.PrivilegedFirstWordsAreSystem := by
  intro seg w ws i rest h
  obtain ⟨hwf, words, hws, hspells⟩ := decode_spells h
  have hfirst : w = firstWord i := by
    have hhead := congrArg List.head? hws
    rw [List.head?_append, hspells.head] at hhead
    exact Option.some.inj hhead
  rw [hfirst]
  refine ⟨?_, fun hsys => ?_⟩
  · cases hsys : isSystem i
    · exact privileged_user hsys
    · exact privileged_system hsys hwf
  · cases hspells with
    | srlb | srab => cases hsys
    | encoded =>
      have htail : ws = (encode i).tail ++ rest := by
        rw [← List.tail_append_of_ne_nil (encode_ne_nil i), ← hws]
        rfl
      rw [htail]
      exact privilegedLength_system hsys hwf

end Sys2Proof
end

section
/-! SUPPORT. The addressing modes (spec/40_addressing_modes.md R150 to R178): the address that each one computes, and what an operand of
each width reads. -/

namespace Sys2Proof.Machine

/-! ### Address registers -/

theorem State.segmented_iff (s : State) : s.segmented = true ↔ s.cfg.variant = .amz8001 ∧ s.fcw.seg = true := by
  simp [State.segmented]

section
variable {s : State} {n : RegCode}

/-- Non-segmented, an address register is one register, in the segment of the PC (R152, R153). -/
theorem addrReg_nonsegmented (h : s.segmented = false) : s.addrReg n = .ok ⟨s.pcSeg, s.reg n⟩ := by
  simp [State.addrReg, h]

/-- Segmented, the even register of the pair holds the segment number and the odd one the offset (R153). -/
theorem addrReg_pair (h : s.segmented = true) (heven : n.getLsbD 0 = false) :
    s.addrReg n = .ok ⟨(s.reg n).extractLsb' 8 7, s.reg (n + 1)⟩ := by
  simp only [State.addrReg, h, heven, segOf, Bool.false_eq_true, if_true, if_false]

theorem addrReg_odd (h : s.segmented = true) (hodd : n.getLsbD 0 = true) : s.addrReg n = .error .badRegisterCode := by
  simp only [State.addrReg, h, hodd, if_true]

/-- The registers of a non-segmented address register: the one that is stepped is the only one (R370). -/
theorem offReg_nonsegmented (h : s.segmented = false) : s.offReg n = n ∧ s.addrRegs n = [n] := by
  simp [State.offReg, State.addrRegs, h]

/-- The registers of a segmented address register: the odd one is stepped (R370). -/
theorem offReg_segmented (h : s.segmented = true) : s.offReg n = n + 1 ∧ s.addrRegs n = [n, n + 1] := by
  simp [State.offReg, State.addrRegs, h]

end

/-! ### Effective addresses -/

/-- A short offset is extended by zeros (R118). -/
theorem addrOf_short (s : State) (g : SegNum) (o : BitVec 8) : s.addrOf (.short g o) = ⟨g, 0#8 ++ o⟩ :=
  congrArg (Address.mk g) (BitVec.setWidth_eq_append (by decide))

section
variable {s : State} {r : RegCode} {b : Address}

/-- BA adds to the offset of its base, as a load and LDA compute it (R168, R209). -/
theorem ea_base_displacement (h : s.addrReg r = .ok b) (disp : Word) :
    s.eaLd (.ba r disp) = .ok (b.plus disp) ∧ s.eaLda (.ba r disp) = .ok (b.plus disp) := by
  simp only [State.eaLd, State.eaLda, State.eaBa, h, bind_of_ok, and_self]

/-- BX adds to the offset of its base, as a load and LDA compute it (R172, R209). -/
theorem ea_base_index (h : s.addrReg r = .ok b) (x : RegCode) :
    s.eaLd (.bx r x) = .ok (b.plus (s.reg x)) ∧ s.eaLda (.bx r x) = .ok (b.plus (s.reg x)) := by
  simp only [State.eaLd, State.eaLda, State.eaBx, h, bind_of_ok, and_self]

end

/-- DA and X with a short address: the index is added to its offset (R158, R163, R164). -/
theorem ea_short (s : State) (g : SegNum) (o : BitVec 8) (x : RegCode) :
    s.ea (.da (.short g o)) = .ok ⟨g, 0#8 ++ o⟩ ∧ s.ea (.x (.short g o) x) = .ok ⟨g, (0#8 ++ o) + s.reg x⟩ := by
  simp only [State.ea, addrOf_short, Address.plus, and_self]

/-- LDA computes in DA and X what a load computes (R209). -/
theorem eaLda_eq_ea (s : State) (a : Addr) (x : RegCode) : s.eaLda (.da a) = s.ea (.da a) ∧ s.eaLda (.x a x) = s.ea (.x a x) :=
  ⟨rfl, rfl⟩

/-! ### Operands in a register and in memory -/

section
variable {s : State} {n : RegCode} {a : Address}

/-- A long word in registers is an even pair (R154). -/
theorem longWidth_get_even (h : n.getLsbD 0 = false) : longWidth.get s n = .ok (s.reg n ++ s.reg (n + 1)) := by
  simp only [longWidth, needPair, h, Bool.false_eq_true, if_false, bind_of_ok, State.rr]

theorem longWidth_get_odd (h : n.getLsbD 0 = true) : longWidth.get s n = .error .badRegisterCode := by
  simp only [longWidth, needPair, h, if_true, bind_of_error]

theorem load_even (h : a.isEven = true) : wordWidth.load s a = .ok (s.wordAt a) ∧ longWidth.load s a = .ok (s.longAt a) :=
  have heven := a.isEven_iff.1 h
  ⟨readWord_ok.2 ⟨heven, rfl⟩, readLong_ok.2 ⟨heven, rfl⟩⟩

theorem load_odd (h : a.isEven = false) : wordWidth.load s a = .error .misaligned ∧ longWidth.load s a = .error .misaligned := by
  simp only [wordWidth, longWidth, State.readWord, State.readLong, needEven_of_odd h, bind_of_error, and_self]

variable {k : Nat} {m : MemOp}

/-- An operand in memory is what its width loads at the effective address (R178). -/
theorem readSrc_mem (w : Width k) (h : s.ea m = .ok a) : readSrc w s (.mem m) = w.load s a := by
  rw [readSrc, h, bind_of_ok]

theorem readRegMem_mem (w : Width k) (h : s.ea m = .ok a) : readRegMem w s (.mem m) = w.load s a := by
  rw [readRegMem, h, bind_of_ok]

theorem readLdSrc_mem {m : LdMem} (w : Width k) (h : s.eaLd m = .ok a) : readLdSrc w s (.mem m) = w.load s a := by
  rw [readLdSrc, h, bind_of_ok]

end

/-! ### O24 -/

/-- Settles O24: an address is its base, from `addrReg` or `addrOf`, with its offset added to; an operand is what its width gets or loads. -/
theorem effectiveAddresses : Obligations.EffectiveAddresses := by
  refine ⟨fun s r x w disp hseg => ?nonsegmented, fun s r x g o w disp hseg heven => ?segmented,
    fun s r x w disp hseg => ?ldaNonsegmented, fun s r x g o w disp hseg heven => ?ldaSegmented, State.segmented_iff, fun _ _ => rfl,
    fun s n hseg => ⟨addrReg_nonsegmented hseg, offReg_nonsegmented hseg⟩, fun s n hseg => ?addressPair,
    fun _ _ _ => ⟨rfl, rfl, rfl, rfl, rfl⟩, fun _ _ _ => ⟨rfl, rfl, rfl, rfl, rfl⟩, fun s n v => ⟨rfl, rfl, fun heven => ?longEven,
    fun hodd => ?longOdd⟩, fun s m a hea => ?memory, fun s m a hea => ?loadMemory⟩
  case nonsegmented =>
    have hbase : s.addrReg r = .ok ⟨s.pcSeg, s.reg r⟩ := addrReg_nonsegmented hseg
    exact ⟨hbase, rfl, rfl, (ea_base_displacement hbase disp).1, (ea_base_index hbase x).1, rfl⟩
  case segmented =>
    have hbase := addrReg_pair hseg heven
    obtain ⟨hda, hx⟩ := ea_short s g o x
    exact ⟨hbase, hda, rfl, hx, rfl, (ea_base_displacement hbase disp).1, (ea_base_index hbase x).1, rfl⟩
  case ldaNonsegmented =>
    have hbase : s.addrReg r = .ok ⟨s.pcSeg, s.reg r⟩ := addrReg_nonsegmented hseg
    exact ⟨rfl, rfl, (ea_base_displacement hbase disp).2, (ea_base_index hbase x).2⟩
  case ldaSegmented =>
    have hbase := addrReg_pair hseg heven
    obtain ⟨hda, hx⟩ := ea_short s g o x
    obtain ⟨hldaDa, hldaX⟩ := eaLda_eq_ea s (.short g o) x
    exact ⟨hldaDa.trans hda, rfl, hldaX.trans hx, rfl, (ea_base_displacement hbase disp).2, (ea_base_index hbase x).2⟩
  case addressPair =>
    obtain ⟨hoff, hregs⟩ := offReg_segmented (n := n) hseg
    exact ⟨hoff, hregs, addrReg_pair hseg, addrReg_odd hseg⟩
  case longEven =>
    have hget : longWidth.get s n = _ := longWidth_get_even heven
    exact ⟨hget, hget, hget⟩
  case longOdd =>
    have hget := longWidth_get_odd (s := s) hodd
    exact ⟨hget, hget, hget⟩
  case memory =>
    simp only [readSrc_mem _ hea, readRegMem_mem _ hea]
    refine ⟨rfl, rfl, fun heven => ?_, fun hodd => ?_⟩
    · obtain ⟨hword, hlong⟩ := load_even (s := s) heven
      exact ⟨hword, hword, hlong, hlong⟩
    · obtain ⟨hword, hlong⟩ := load_odd (s := s) hodd
      exact ⟨hword, hword, hlong, hlong⟩
  case loadMemory =>
    simp only [readLdSrc_mem _ hea]
    exact ⟨rfl, load_even, load_odd⟩

end Sys2Proof.Machine
end

section
/-! SUPPORT. Accesses to operands that succeed, and what they leave (spec/40_addressing_modes.md R154, R178; spec/20_memory.md R90). -/

namespace Sys2Proof.Machine

/-! ### Accesses by width -/

theorem Address.plus_even (a : Address) (k : Word) (hk : k.getLsbD 0 = false) (h : a.off.getLsbD 0 = false) :
    (a.plus k).off.getLsbD 0 = false := by
  rw [Address.plus_off, getLsbD_add_even _ _ hk, h]

theorem State.writeLong_of_even (s : State) (a : Address) (v : Long) (h : a.off.getLsbD 0 = false) :
    s.writeLong a v = .ok (s.putLong a v) :=
  writeLong_ok.2 ⟨h, rfl⟩

/-- A long word is written to an even pair (R154). -/
theorem longWidth_set_even {s : State} {r : RegCode} {v : Long} (h : r.getLsbD 0 = false) : longWidth.set s r v = .ok (s.setRr r v) := by
  simp only [longWidth, needPair, h, Bool.false_eq_true, if_false, bind_of_ok]

theorem State.rb_setRb_same (s : State) (c : RegCode) (v : Byte) : (s.setRb c v).rb c = v := by
  rw [State.rb_setRb, if_pos rfl]

/-- What can be read at a width can be written, and is read back; a store moves no operand. -/
structure WidthReadsBack {n : Nat} (w : Width n) : Prop where
  set_get : ∀ {s r x} (v : BitVec n), w.get s r = .ok x → ∃ t, w.set s r v = .ok t ∧ w.get t r = .ok v
  store_load : ∀ {s a x} (v : BitVec n), s.mem.wf = true → w.load s a = .ok x →
    ∃ t, w.store s a v = .ok t ∧ w.load t a = .ok v ∧ t.ea = s.ea

theorem byteReadsBack : WidthReadsBack byteWidth where
  set_get {s r _} v _ := ⟨_, rfl, congrArg Except.ok (s.rb_setRb_same r v)⟩
  store_load {s a _} v hwf _ := ⟨_, rfl, congrArg Except.ok (s.readByte_writeByte_same a v hwf), rfl⟩

theorem wordReadsBack : WidthReadsBack wordWidth where
  set_get {s r _} v _ := ⟨_, rfl, congrArg Except.ok (s.reg_setReg_same r v)⟩
  store_load {s a _} v hwf hload := by
    obtain ⟨heven, _⟩ := readWord_ok.1 hload
    exact ⟨_, s.writeWord_of_even a v heven, readWord_ok.2 ⟨heven, s.wordAt_putWord_same a v hwf⟩, rfl⟩

/-- An operand that can be read can be written, and reads back what was written (R178). -/
theorem readRegMem_writeRegMem {n : Nat} {w : Width n} (B : WidthReadsBack w) {s : State} {dst : RegMem} {x : BitVec n} (v : BitVec n)
    (hwf : s.mem.wf = true) (hread : readRegMem w s dst = .ok x) :
    ∃ t, writeRegMem w s dst v = .ok t ∧ readRegMem w t dst = .ok v := by
  cases dst with
  | reg r => exact B.set_get v hread
  | mem m =>
    obtain ⟨a, hea, hload⟩ := bind_ok.1 hread
    obtain ⟨t, hstore, hback, hmoved⟩ := B.store_load v hwf hload
    exact ⟨t, bind_ok.2 ⟨a, hea, hstore⟩, bind_ok.2 ⟨a, hmoved ▸ hea, hback⟩⟩

/-- A register that an operand does not use does not move it. -/
theorem State.ea_setReg (s : State) {r : RegCode} {long : Bool} {m : MemOp} (x : Word) (h : r ∉ s.operandRegs long (.mem m)) :
    (s.setReg r x).ea m = s.ea m :=
  Option.some.inj (regMemAddr_setReg x h)

/-! ### Registers and words outside an effect -/

/-- A register whose halves no operation of the effect changes reads as before. -/
theorem Effect.reg {s t : State} {rs : List RegCode} {bits : List FcwBit} {parts : List Part}
    (e : Effect s t (bothHalves (rs.map s.phys)) bits parts) (hsn : .sn ∉ bits) {m : RegCode} (hm : m ∉ rs) : t.reg m = s.reg m := by
  have hkept : t.gr[s.phys m] = s.gr[s.phys m] := State.gr_eq_of_halves fun low => e.half _ low (by simpa [s.phys_inj] using hm)
  simpa only [State.reg, e.phys hsn] using hkept

theorem Stores.wordAt {s t : State} {keys : List Nat} (e : Stores s t keys) {a : Address} (h0 : s.key a ∉ keys)
    (h1 : s.key (a.plus 1) ∉ keys) : t.wordAt a = s.wordAt a := by
  unfold State.wordAt State.readByte
  rw [State.key_congr s t e.cfg, e.read _ h0, e.read _ h1]

end Sys2Proof.Machine
end

section
/-! SUPPORT. The load and exchange instructions (spec/41_load_exchange.md): when they complete, and what they leave. -/

namespace Sys2Proof.Machine

/-! ### The shared operations -/

section
variable {n : Nat} {w : Width n} {s t : State}

theorem loadReg_ok {d : RegCode} {src : LdSrc n} : loadReg w d src s = .ok t ↔ ∃ v, readLdSrc w s src = .ok v ∧ w.set s d v = .ok t :=
  bind_ok

theorem loadRel_ok {d : RegCode} {disp : Word} :
    loadRel w d disp s = .ok t ↔ ∃ v, w.load s (s.eaRa disp) = .ok v ∧ w.set s d v = .ok t :=
  bind_ok

theorem storeReg_ok {dst : LdMem} {r : RegCode} :
    storeReg w dst r s = .ok t ↔ ∃ a, s.eaLd dst = .ok a ∧ ∃ v, w.get s r = .ok v ∧ w.store s a v = .ok t := by
  simp only [storeReg, bind_ok]

theorem storeImm_ok {dst : MemOp} {v : BitVec n} : storeImm w dst v s = .ok t ↔ ∃ a, s.ea dst = .ok a ∧ w.store s a v = .ok t :=
  bind_ok

theorem storeRel_ok {disp : Word} {r : RegCode} :
    storeRel w disp r s = .ok t ↔ ∃ v, w.get s r = .ok v ∧ w.store s (s.eaRa disp) v = .ok t :=
  bind_ok

/-- EX with an operand in memory stores the register before it loads it (R202). -/
theorem exchange_mem_ok {d : RegCode} {m : MemOp} : exchange w d (.mem m) s = .ok t ↔
    ∃ a, s.ea m = .ok a ∧ ∃ x, w.load s a = .ok x ∧ ∃ v, w.get s d = .ok v ∧ ∃ u, w.store s a v = .ok u ∧ w.set u d x = .ok t := by
  simp only [exchange, bind_ok]

end

/-! ### Addresses loaded (R209) -/

section
variable {s : State} {d : RegCode}

theorem putAddr_nonsegmented (a : Address) (h : s.segmented = false) : putAddr d a s = .ok (s.setReg d a.off) := by
  simp only [putAddr, h, Bool.false_eq_true, if_false]

/-- Segmented, the even register of the pair receives a segment word and the odd one the offset. -/
theorem putAddr_segmented (a : Address) (h : s.segmented = true) (heven : d.getLsbD 0 = false) :
    ∃ t, putAddr d a s = .ok t ∧ (t.reg d).extractLsb' 8 7 = a.seg ∧ t.reg (d + 1) = a.off := by
  have hne : d + 1 ≠ d := by bv_omega
  refine ⟨(s.drawn.drawn.setReg d (s.segWord a.seg)).setReg (d + 1) a.off, ?_, ?_, State.reg_setReg_same ..⟩
  · simp only [putAddr, h, needPair, heven, Bool.false_eq_true, if_true, if_false, bind_of_ok]
  · rw [State.reg_setReg_ne _ _ hne, State.reg_setReg_same]
    exact segOf_segWord _ _ _

end

/-! ### O26 -/

/-- Settles O26: each load sets its register to what its source reads. -/
theorem loadsPutTheOperand : Obligations.LoadsPutTheOperand := by
  refine ⟨fun s d src v hread => ?ld, fun s d src v hread => ?ldb, fun s d src v hd hread => ?ldl, fun s d v => ?ldbk, fun s d n => ?ldk,
    fun s d disp heven => ?ldr, fun s d disp => ?ldrb, fun s d disp hd heven => ?ldrl, fun s d src a hseg hea => ?lda,
    fun s d src a hseg hd hea => ?ldaSegmented, fun s d disp hseg => ?ldar, fun s d disp hseg hd => ?ldarSegmented⟩
  case ld => exact ⟨_, finish_next.2 (loadReg_ok.2 ⟨v, hread, rfl⟩), s.reg_setReg_same d v⟩
  case ldb => exact ⟨_, finish_next.2 (loadReg_ok.2 ⟨v, hread, rfl⟩), s.rb_setRb_same d v⟩
  case ldl => exact ⟨_, finish_next.2 (loadReg_ok.2 ⟨v, hread, longWidth_set_even hd⟩), s.rr_setRr d v⟩
  case ldbk => exact ⟨_, rfl, s.rb_setRb_same d v⟩
  case ldk => exact ⟨_, rfl, (s.reg_setReg_same d _).trans (BitVec.setWidth_eq_append (by decide))⟩
  case ldr => exact ⟨_, finish_next.2 (loadRel_ok.2 ⟨_, s.readWord_of_even _ heven, rfl⟩), s.reg_setReg_same d _⟩
  case ldrb => exact ⟨_, rfl, s.rb_setRb_same d _⟩
  case ldrl =>
    exact ⟨_, finish_next.2 (loadRel_ok.2 ⟨_, readLong_ok.2 ⟨heven, rfl⟩, longWidth_set_even hd⟩), s.rr_setRr d _⟩
  case lda => exact ⟨_, finish_next.2 (bind_ok.2 ⟨a, hea, putAddr_nonsegmented a hseg⟩), s.reg_setReg_same d _⟩
  case ldaSegmented =>
    obtain ⟨t, hput, hloaded⟩ := putAddr_segmented a hseg hd
    exact ⟨t, finish_next.2 (bind_ok.2 ⟨a, hea, hput⟩), hloaded⟩
  case ldar => exact ⟨_, finish_next.2 (putAddr_nonsegmented _ hseg), s.reg_setReg_same d _⟩
  case ldarSegmented =>
    obtain ⟨t, hput, hloaded⟩ := putAddr_segmented (s.eaRa disp) hseg hd
    exact ⟨t, finish_next.2 hput, hloaded⟩

/-! ### O27 -/

/-- Settles O27: each store writes its operand at the effective address, where it reads back. -/
theorem storesPutTheRegister : Obligations.StoresPutTheRegister := by
  refine ⟨fun s dst r a hwf hea heven => ?ld, fun s dst r a hwf hea => ?ldb, fun s dst r a hwf hea heven hr => ?ldl,
    fun s dst v a hwf hea heven => ?ldImm, fun s dst v a hwf hea => ?ldbImm, fun s disp r hwf heven => ?ldr,
    fun s disp r hwf => ?ldrb, fun s disp r hwf heven hr => ?ldrl⟩
  case ld =>
    have hstore := s.writeWord_of_even a (s.reg r) (a.isEven_iff.1 heven)
    exact ⟨_, finish_next.2 (storeReg_ok.2 ⟨a, hea, _, rfl, hstore⟩), s.wordAt_putWord_same a _ hwf⟩
  case ldb => exact ⟨_, finish_next.2 (storeReg_ok.2 ⟨a, hea, _, rfl, rfl⟩), s.readByte_writeByte_same a _ hwf⟩
  case ldl =>
    have hstore := s.writeLong_of_even a (s.rr r) (a.isEven_iff.1 heven)
    exact ⟨_, finish_next.2 (storeReg_ok.2 ⟨a, hea, _, longWidth_get_even hr, hstore⟩), s.longAt_putLong a _ hwf⟩
  case ldImm =>
    have hstore := s.writeWord_of_even a v (a.isEven_iff.1 heven)
    exact ⟨_, finish_next.2 (storeImm_ok.2 ⟨a, hea, hstore⟩), s.wordAt_putWord_same a v hwf⟩
  case ldbImm => exact ⟨_, finish_next.2 (storeImm_ok.2 ⟨a, hea, rfl⟩), s.readByte_writeByte_same a v hwf⟩
  case ldr => exact ⟨_, finish_next.2 (storeRel_ok.2 ⟨_, rfl, s.writeWord_of_even _ _ heven⟩), s.wordAt_putWord_same _ _ hwf⟩
  case ldrb => exact ⟨_, rfl, s.readByte_writeByte_same _ _ hwf⟩
  case ldrl =>
    exact ⟨_, finish_next.2 (storeRel_ok.2 ⟨_, longWidth_get_even hr, s.writeLong_of_even _ _ heven⟩), s.longAt_putLong _ _ hwf⟩

/-! ### O28 -/

/-- Of two registers exchanged the first written has the value of the other, also when they are one register (R202). -/
theorem State.reg_exchanged (s : State) (d r : RegCode) : ((s.setReg r (s.reg d)).setReg d (s.reg r)).reg r = s.reg d := by
  rw [State.reg_setReg]
  split
  · next h => rw [h]
  · exact s.reg_setReg_same r _

theorem State.rb_exchanged (s : State) (d r : RegCode) : ((s.setRb r (s.rb d)).setRb d (s.rb r)).rb r = s.rb d := by
  rw [State.rb_setRb]
  split
  · next h => rw [h]
  · exact s.rb_setRb_same r _

/-- Settles O28: a cleared operand reads back 0, and of an exchange both writes read back. -/
theorem clearAndExchange : Obligations.ClearAndExchange := by
  refine ⟨fun s dst v hwf hread => ?clr, fun s dst v hwf hread => ?clrb,
    fun s d r => ⟨_, rfl, State.reg_setReg_same .., s.reg_exchanged d r⟩, fun s d r => ⟨_, rfl, State.rb_setRb_same .., s.rb_exchanged d r⟩,
    fun s d m a hwf hea heven => ?exMemory, fun s d m a hwf hea => ?exbMemory⟩
  case clr =>
    obtain ⟨t, hwrite, hback⟩ := readRegMem_writeRegMem wordReadsBack 0 hwf hread
    exact ⟨t, finish_next.2 hwrite, hback⟩
  case clrb =>
    obtain ⟨t, hwrite, hback⟩ := readRegMem_writeRegMem byteReadsBack 0 hwf hread
    exact ⟨t, finish_next.2 hwrite, hback⟩
  case exMemory =>
    have heven := a.isEven_iff.1 heven
    have hdone : exchange wordWidth d (.mem m) s = .ok ((s.putWord a (s.reg d)).setReg d (s.wordAt a)) :=
      exchange_mem_ok.2 ⟨a, hea, _, s.readWord_of_even a heven, _, rfl, _, s.writeWord_of_even a _ heven, rfl⟩
    exact ⟨_, finish_next.2 hdone, State.reg_setReg_same .., s.wordAt_putWord_same a _ hwf⟩
  case exbMemory =>
    have hdone : exchange byteWidth d (.mem m) s = .ok ((s.writeByte a (s.rb d)).setRb d (s.readByte a)) :=
      exchange_mem_ok.2 ⟨a, hea, _, rfl, _, rfl, _, rfl, rfl⟩
    exact ⟨_, finish_next.2 hdone, State.rb_setRb_same .., s.readByte_writeByte_same a _ hwf⟩

/-! ### O29 -/

/-- Fewer than 16 registers after d do not come round to d. -/
theorem not_mem_runOf_succ {d : RegCode} {k : Nat} (hk : k < 16) : d ∉ runOf (d + 1) k := by
  simp only [runOf, List.mem_map, List.mem_range, not_exists, not_and]
  intro j hj
  bv_omega

/-- The two bytes of a word are none of the k words behind it. -/
theorem keys_not_mem_keysFrom (s : State) (a : Address) {k : Nat} (hk : k < 16) :
    s.key a ∉ s.keysFrom (a.plus 2) (2 * k) ∧ s.key (a.plus 1) ∉ s.keysFrom (a.plus 2) (2 * k) := by
  have hapart (i : Word) (hi : i.toNat < 2) : s.key (a.plus i) ∉ s.keysFrom (a.plus 2) (2 * k) := by
    simp only [State.keysFrom, List.mem_map, List.mem_range, not_exists, not_and, Address.plus_plus]
    intro j hj
    exact s.key_plus_ne a _ _ (by bv_omega)
  exact ⟨by simpa using hapart 0 (by decide), hapart 1 (by decide)⟩

/-- The register and the word that a loop of LDM comes to next (R212, R213). -/
theorem next_run (d : RegCode) (a : Address) (j : Nat) : d + BitVec.ofNat 4 (j + 1) = d + 1 + BitVec.ofNat 4 j ∧
    a.plus (BitVec.ofNat 16 (2 * (j + 1))) = (a.plus 2).plus (BitVec.ofNat 16 (2 * j)) := by
  rw [Address.plus_plus]
  exact ⟨by bv_omega, congrArg a.plus (by bv_omega)⟩

/-- The loop of R212 leaves its words in up to 16 registers: no later one is a register loaded before. -/
theorem loadRegs_leaves : ∀ {k : Nat} (d : RegCode) (a : Address) (s : State), k ≤ 16 → a.off.getLsbD 0 = false →
    ∃ t, loadRegs k d a s = .ok t ∧ ∀ j < k, t.reg (d + BitVec.ofNat 4 j) = s.wordAt (a.plus (BitVec.ofNat 16 (2 * j)))
  | 0, _, _, s, _, _ => ⟨s, rfl, fun _ hj => absurd hj (Nat.not_lt_zero _)⟩
  | k + 1, d, a, s, hk, heven => by
    obtain ⟨t, hrest, hwords⟩ := loadRegs_leaves (d + 1) (a.plus 2) (s.setReg d (s.wordAt a)) (Nat.le_of_succ_le hk)
      (a.plus_even 2 (by decide) heven)
    refine ⟨t, bind_ok.2 ⟨_, s.readWord_of_even a heven, hrest⟩, fun j hj => ?_⟩
    cases j with
    | zero =>
      have hkept := (loadRegs_effect hrest).reg (by simp) (not_mem_runOf_succ hk)
      simpa using hkept
    | succ j =>
      obtain ⟨hreg, haddr⟩ := next_run d a j
      rw [hreg, haddr]
      exact hwords j (Nat.lt_of_succ_lt_succ hj)

/-- The loop of R213 leaves up to 16 registers in its words: no later word overlaps one stored before. -/
theorem storeRegs_leaves : ∀ {k : Nat} (r : RegCode) (a : Address) (s : State), k ≤ 16 → s.mem.wf = true → a.off.getLsbD 0 = false →
    ∃ t, storeRegs k r a s = .ok t ∧ ∀ j < k, t.wordAt (a.plus (BitVec.ofNat 16 (2 * j))) = s.reg (r + BitVec.ofNat 4 j)
  | 0, _, _, s, _, _, _ => ⟨s, rfl, fun _ hj => absurd hj (Nat.not_lt_zero _)⟩
  | k + 1, r, a, s, hk, hwf, heven => by
    obtain ⟨t, hrest, hwords⟩ :=
      storeRegs_leaves (r + 1) (a.plus 2) (s.putWord a (s.reg r)) (Nat.le_of_succ_le hk) (s.wf_putWord a _ hwf)
        (a.plus_even 2 (by decide) heven)
    refine ⟨t, bind_ok.2 ⟨_, s.writeWord_of_even a _ heven, hrest⟩, fun j hj => ?_⟩
    cases j with
    | zero =>
      obtain ⟨hhi, hlo⟩ := keys_not_mem_keysFrom (s.putWord a (s.reg r)) a hk
      have hkept := (storeRegs_stores hrest).wordAt hhi hlo
      simpa using hkept.trans (s.wordAt_putWord_same a _ hwf)
    | succ j =>
      obtain ⟨hreg, haddr⟩ := next_run r a j
      rw [hreg, haddr]
      exact hwords j (Nat.lt_of_succ_lt_succ hj)

/-- Settles O29: the loops of LDM, run from the effective address. -/
theorem loadMultipleMovesEachWord : Obligations.LoadMultipleMovesEachWord := by
  refine ⟨fun s d src n a hea heven => ?load, fun s dst r n a hwf hea heven => ?store⟩
  case load =>
    obtain ⟨t, hload, hwords⟩ := loadRegs_leaves d a s (k := n.toNat + 1) n.isLt (a.isEven_iff.1 heven)
    exact ⟨t, finish_next.2 (bind_ok.2 ⟨a, hea, hload⟩), fun k hk => hwords k (Nat.lt_succ_of_le hk)⟩
  case store =>
    obtain ⟨t, hstore, hwords⟩ := storeRegs_leaves r a s (k := n.toNat + 1) n.isLt hwf (a.isEven_iff.1 heven)
    exact ⟨t, finish_next.2 (bind_ok.2 ⟨a, hea, hstore⟩), fun k hk => hwords k (Nat.lt_succ_of_le hk)⟩

/-! ### O30 -/

theorem Address.plus_neg (a : Address) (k : Word) : a.plus (-k) = ⟨a.seg, a.off - k⟩ := by
  rw [Address.plus, BitVec.sub_eq_add_neg]

section
variable {s t : State} {sp : RegCode} {a : Address}

/-- A push by an even stack pointer completes: the value is on the stack, and the pointer points at it (R301). -/
theorem pushWord_leaves (v : Word) (hwf : s.mem.wf = true) (ha : s.addrReg sp = .ok a) (heven : a.isEven = true) :
    ∃ t, s.pushWord sp v = .ok t ∧ t.wordAt ⟨a.seg, a.off - 2⟩ = v ∧ t.reg (s.offReg sp) = a.off - 2 := by
  have hbelow := a.plus_even (-2) (by decide) (a.isEven_iff.1 heven)
  rw [← Address.plus_neg]
  refine ⟨_, bind_ok.2 ⟨a, ha, State.writeWord_of_even _ _ v hbelow⟩, State.wordAt_putWord_same _ _ v hwf, ?_⟩
  rw [State.putWord_reg, State.reg_setReg_same, Address.plus_neg]

theorem pushLong_leaves (v : Long) (hwf : s.mem.wf = true) (ha : s.addrReg sp = .ok a) (heven : a.isEven = true) :
    ∃ t, s.pushLong sp v = .ok t ∧ t.longAt ⟨a.seg, a.off - 4⟩ = v ∧ t.reg (s.offReg sp) = a.off - 4 := by
  have hbelow := a.plus_even (-4) (by decide) (a.isEven_iff.1 heven)
  rw [← Address.plus_neg]
  refine ⟨_, bind_ok.2 ⟨a, ha, State.writeLong_of_even _ _ v hbelow⟩, State.longAt_putLong _ _ v hwf, ?_⟩
  rw [State.putLong_reg, State.reg_setReg_same, Address.plus_neg]

/-- PUSH reads its source before the stack pointer moves (R217). -/
theorem execPush_next {src : RegMem} {v : Word} (h : overlap (s.addrRegs sp) (s.operandRegs false src) = false)
    (hread : readRegMem wordWidth s src = .ok v) (hpush : s.pushWord sp v = .ok t) : execPush sp src s = .next t := by
  simp only [execPush, h, Bool.false_eq_true, if_false, hread, bind_of_ok, hpush, finish_ok]

theorem execPushl_next {src : RegMem} {v : Long} (h : overlap (s.addrRegs sp) (s.operandRegs true src) = false)
    (hread : readRegMem longWidth s src = .ok v) (hpush : s.pushLong sp v = .ok t) : execPushl sp src s = .next t := by
  simp only [execPushl, h, Bool.false_eq_true, if_false, hread, bind_of_ok, hpush, finish_ok]

/-- POP writes its destination after the stack pointer has moved (R216). -/
theorem execPop_next {dst : RegMem} (h : overlap (s.addrRegs sp) (s.operandRegs false dst) = false) (ha : s.addrReg sp = .ok a)
    (heven : a.isEven = true) (hwrite : writeRegMem wordWidth (s.setReg (s.offReg sp) (a.off + 2)) dst (s.wordAt a) = .ok t) :
    execPop dst sp s = .next t := by
  have hpop := popWord_ok.2 ⟨a, ha, a.isEven_iff.1 heven, rfl, rfl⟩
  simp only [execPop, h, Bool.false_eq_true, if_false, hpop, bind_of_ok, hwrite, finish_ok]

theorem execPopl_next {dst : RegMem} (h : overlap (s.addrRegs sp) (s.operandRegs true dst) = false) (ha : s.addrReg sp = .ok a)
    (heven : a.isEven = true) (hwrite : writeRegMem longWidth (s.setReg (s.offReg sp) (a.off + 4)) dst (s.longAt a) = .ok t) :
    execPopl dst sp s = .next t := by
  have hpop := popLong_ok.2 ⟨a, ha, a.isEven_iff.1 heven, rfl, rfl⟩
  simp only [execPopl, h, Bool.false_eq_true, if_false, hpop, bind_of_ok, hwrite, finish_ok]

/-- The stack pointer that is stepped is no register that the other operand is or uses. -/
theorem offReg_not_mem {rs : List RegCode} (h : overlap (s.addrRegs sp) rs = false) : s.offReg sp ∉ rs :=
  not_mem_of_not_overlap (Bool.eq_false_iff.1 h) (s.offReg_mem_addrRegs sp)

end

theorem overlap_iff (a b : List RegCode) : overlap a b = true ↔ ∃ x, x ∈ a ∧ x ∈ b := by
  simp only [overlap, List.any_eq_true, List.contains_iff_mem]

/-- Settles O30: outside the overlap the stack pointer and the other operand do not disturb each other, and inside it the first check
refuses. -/
theorem pushAndPop : Obligations.PushAndPop := by
  refine ⟨fun s sp src a v hwf hno ha heven hread => ?push, fun s sp src a v hwf hno ha heven hread => ?pushl,
    fun s sp v a hwf ha heven => ?pushImm, fun s sp r a hno ha heven => ?pop, fun s sp r a hno hr ha heven => ?popl,
    fun s sp m a b hwf hno ha heven hea hb => ?popMemory, fun s sp m a b hwf hno ha heven hea hb => ?poplMemory,
    fun s sp m => ⟨fun h => ⟨congrArg finish (if_pos h), congrArg finish (if_pos h)⟩,
      fun h => ⟨congrArg finish (if_pos h), congrArg finish (if_pos h)⟩⟩, overlap_iff, fun _ _ _ _ => ⟨rfl, rfl, rfl, rfl, rfl⟩⟩
  case push =>
    obtain ⟨t, hpush, hleaves⟩ := pushWord_leaves v hwf ha heven
    exact ⟨t, execPush_next hno hread hpush, hleaves⟩
  case pushl =>
    obtain ⟨t, hpush, hleaves⟩ := pushLong_leaves v hwf ha heven
    exact ⟨t, execPushl_next hno hread hpush, hleaves⟩
  case pushImm =>
    obtain ⟨t, hpush, hleaves⟩ := pushWord_leaves v hwf ha heven
    exact ⟨t, finish_next.2 hpush, hleaves⟩
  case pop =>
    have hr : r ≠ s.offReg sp := Ne.symm (by simpa using offReg_not_mem hno)
    refine ⟨_, execPop_next hno ha heven rfl, State.reg_setReg_same .., ?_⟩
    rw [State.reg_setReg_ne _ _ hr, State.reg_setReg_same]
  case popl =>
    obtain ⟨hhi, hlo⟩ : s.offReg sp ≠ r ∧ s.offReg sp ≠ r + 1 := by simpa using offReg_not_mem hno
    refine ⟨_, execPopl_next hno ha heven (longWidth_set_even hr), State.rr_setRr .., ?_⟩
    rw [State.reg_setRr, if_neg hlo, if_neg hhi, State.reg_setReg_same]
  case popMemory =>
    have hmoved := (s.ea_setReg (a.off + 2) (offReg_not_mem hno)).trans hea
    have hstore := State.writeWord_of_even (s.setReg (s.offReg sp) (a.off + 2)) b (s.wordAt a) (b.isEven_iff.1 hb)
    refine ⟨_, execPop_next hno ha heven (bind_ok.2 ⟨b, hmoved, hstore⟩), State.wordAt_putWord_same _ _ _ hwf, ?_⟩
    rw [State.putWord_reg, State.reg_setReg_same]
  case poplMemory =>
    have hmoved := (s.ea_setReg (a.off + 4) (offReg_not_mem hno)).trans hea
    have hstore := State.writeLong_of_even (s.setReg (s.offReg sp) (a.off + 4)) b (s.longAt a) (b.isEven_iff.1 hb)
    refine ⟨_, execPopl_next hno ha heven (bind_ok.2 ⟨b, hmoved, hstore⟩), State.longAt_putLong _ _ _ hwf, ?_⟩
    rw [State.putLong_reg, State.reg_setReg_same]

end Sys2Proof.Machine
end

section
/-! SUPPORT. The decoder on words of the spec's Encoding and Example lines. -/

namespace Sys2Proof

/-- Settles O4: the decoder evaluated on each word sequence. -/
theorem specWordsDecode : Obligations.SpecWordsDecode :=
  ⟨rfl, rfl, rfl, rfl, rfl, rfl, rfl, rfl, rfl, rfl, rfl⟩

end Sys2Proof
end

section
/-! SUPPORT. The adder of the arithmetic instructions (spec/42_arithmetic.md R241, R242): its result is the exact signed number cut to the
width, and its flags are those of that number. -/

namespace Sys2Proof.Machine

/-! ### Signed numbers of n bits -/

/-- A signed number is given by its bits. -/
theorem fitsSigned_toInt {n : Nat} (a : BitVec n) : fitsSigned n a.toInt := ⟨a.le_toInt, a.toInt_lt⟩

theorem toInt_ofInt_of_fits {n : Nat} {x : Int} (hn : 0 < n) (h : fitsSigned n x) : (BitVec.ofInt n x).toInt = x :=
  BitVec.toInt_ofInt_eq_self hn h.1 h.2

theorem outOfRange_iff (n : Nat) (x : Int) : outOfRange n x = true ↔ ¬ fitsSigned n x := by
  simp only [outOfRange, fitsSigned, decide_eq_true_iff]
  omega

theorem msb_iff_neg {n : Nat} (a : BitVec n) : a.msb = true ↔ a.toInt < 0 := by
  rw [BitVec.msb_eq_toInt, decide_eq_true_iff]

/-- Cut to the width, a number below twice the range of the width changes its sign exactly when it does not fit. -/
theorem msb_ofInt_iff {n : Nat} {x : Int} (hn : 0 < n) (hlow : -2 ^ n ≤ x) (hhigh : x < 2 ^ n) :
    (BitVec.ofInt n x).msb = true ↔ (x < 0 ↔ fitsSigned n x) := by
  obtain ⟨k, rfl⟩ := Nat.exists_eq_add_one_of_ne_zero hn.ne'
  have hpow : (0 : Int) < 2 ^ k := by positivity
  rw [msb_iff_neg, BitVec.toInt_ofInt]
  unfold fitsSigned
  simp only [Nat.add_sub_cancel, Int.bmod_def, pow_succ, Nat.cast_mul, Nat.cast_pow, Nat.cast_ofNat] at *
  generalize (2 : Int) ^ k = P at *
  rcases lt_or_ge x 0 with hneg | hnonneg
  · rw [← Int.add_emod_right x (P * 2), Int.emod_eq_of_lt (by omega) (by omega)]
    split <;> omega
  · rw [Int.emod_eq_of_lt (by omega) (by omega)]
    split <;> omega

/-- Overflow seen at the signs: where the signs of the operands admit one, the exact result has the sign `neg`, and its cut has
another. -/
theorem sign_changed_iff {n : Nat} {x : Int} (hn : 0 < n) (hlow : -2 ^ n ≤ x) (hhigh : x < 2 ^ n) {possible neg : Bool}
    (hfits : possible = false → fitsSigned n x) (hsign : possible = true → (neg = true ↔ x < 0)) :
    (possible && (BitVec.ofInt n x).msb != neg) = true ↔ ¬ fitsSigned n x := by
  have hmsb := msb_ofInt_iff hn hlow hhigh
  cases possible
  · simpa using hfits rfl
  · rw [Bool.true_and, bne_iff_ne, Ne, Bool.eq_iff_iff, hmsb, hsign rfl]
    tauto

/-! ### Addition and subtraction -/

/-- What R241 and R242 say of an adder's output for the exact signed result x: the result is x cut to the width, and Z, S and V are
the flags of it. -/
structure AluOut.IsExact {n : Nat} (o : AluOut n) (x : Int) : Prop where
  value : o.r = BitVec.ofInt n x
  zero : o.z = true ↔ o.r = 0
  sign : o.s = o.r.msb
  overflow : o.v = true ↔ ¬ fitsSigned n x

section
variable {n : Nat} (a b : BitVec n) (cin : Bool)

theorem addN_r : (addN a b cin).r = BitVec.ofInt n (a.toInt + b.toInt + cin.toNat) := by
  simp [addN, BitVec.ofNat_add, BitVec.ofInt_add]

theorem subN_r : (subN a b cin).r = BitVec.ofInt n (a.toInt - b.toInt - cin.toNat) := by
  simp [subN, Int.sub_eq_add_neg, BitVec.ofInt_add, BitVec.ofInt_neg, BitVec.sub_eq_add_neg]

/-- Operands of different signs have a sum that fits, and two of one sign give it their sign (R241). -/
theorem addN_v (hn : 0 < n) : (addN a b cin).v = true ↔ ¬ fitsSigned n (a.toInt + b.toInt + cin.toNat) := by
  have hpow : (2 : Int) ^ n = 2 * 2 ^ (n - 1) := (mul_pow_sub_one hn.ne' 2).symm
  obtain ⟨hlowA, hhighA⟩ := fitsSigned_toInt a
  obtain ⟨hlowB, hhighB⟩ := fitsSigned_toInt b
  have hcin := cin.toNat_le
  have hA := msb_iff_neg a
  have hB := msb_iff_neg b
  have hv : (addN a b cin).v = (a.msb == b.msb && (addN a b cin).r.msb != a.msb) := rfl
  rw [hv, addN_r]
  refine sign_changed_iff hn (by omega) (by omega) (fun hdiff => ?_) fun hsame => ?_
  · rw [beq_eq_false_iff_ne, Ne, Bool.eq_iff_iff, hA, hB, not_iff] at hdiff
    unfold fitsSigned
    omega
  · rw [beq_iff_eq, Bool.eq_iff_iff, hA, hB] at hsame
    rw [hA]
    omega

/-- Operands of one sign have a difference that fits, and of two different signs it has that of the minuend (R242). -/
theorem subN_v (hn : 0 < n) : (subN a b cin).v = true ↔ ¬ fitsSigned n (a.toInt - b.toInt - cin.toNat) := by
  have hpow : (2 : Int) ^ n = 2 * 2 ^ (n - 1) := (mul_pow_sub_one hn.ne' 2).symm
  obtain ⟨hlowA, hhighA⟩ := fitsSigned_toInt a
  obtain ⟨hlowB, hhighB⟩ := fitsSigned_toInt b
  have hcin := cin.toNat_le
  have hA := msb_iff_neg a
  have hB := msb_iff_neg b
  have hv : (subN a b cin).v = (a.msb != b.msb && (subN a b cin).r.msb != a.msb) := rfl
  rw [hv, subN_r]
  refine sign_changed_iff hn (by omega) (by omega) (fun hsame => ?_) fun hdiff => ?_
  · rw [bne_eq_false_iff_eq, Bool.eq_iff_iff, hA, hB] at hsame
    unfold fitsSigned
    omega
  · rw [bne_iff_ne, Ne, Bool.eq_iff_iff, hA, hB, not_iff] at hdiff
    rw [hA]
    omega

theorem addN_isExact (hn : 0 < n) : (addN a b cin).IsExact (a.toInt + b.toInt + cin.toNat) :=
  ⟨addN_r a b cin, beq_iff_eq, rfl, addN_v a b cin hn⟩

theorem subN_isExact (hn : 0 < n) : (subN a b cin).IsExact (a.toInt - b.toInt - cin.toNat) :=
  ⟨subN_r a b cin, beq_iff_eq, rfl, subN_v a b cin hn⟩

/-- The signs of the operands and of the result, as R241 words V. -/
theorem addN_v_signs : (addN a b cin).v = true ↔
    a.getLsbD (n - 1) = b.getLsbD (n - 1) ∧ (addN a b cin).r.getLsbD (n - 1) ≠ a.getLsbD (n - 1) := by
  simp only [← BitVec.msb_eq_getLsbD_last, addN, Bool.and_eq_true, beq_iff_eq, bne_iff_ne]

/-- The signs of the operands and of the result, as R242 words V. -/
theorem subN_v_signs : (subN a b cin).v = true ↔
    a.getLsbD (n - 1) ≠ b.getLsbD (n - 1) ∧ (subN a b cin).r.getLsbD (n - 1) ≠ a.getLsbD (n - 1) := by
  simp only [← BitVec.msb_eq_getLsbD_last, subN, Bool.and_eq_true, bne_iff_ne]

/-- The difference of the unsigned operands modulo 2^n. -/
theorem subN_toNat : ((subN a b cin).r.toNat : Int) = ((a.toNat : Int) - b.toNat - cin.toNat) % 2 ^ n := by
  have hr : (subN a b cin).r = BitVec.ofInt n (a.toNat - b.toNat - cin.toNat) := by
    simp [subN, Int.sub_eq_add_neg, BitVec.ofInt_add, BitVec.ofInt_neg, BitVec.sub_eq_add_neg]
  rw [hr, BitVec.toNat_ofInt, Int.toNat_of_nonneg (Int.emod_nonneg _ (by positivity)), Nat.cast_pow, Nat.cast_ofNat]

theorem addN_c : (addN a b cin).c = true ↔ carries a b cin := decide_eq_true_iff

theorem subN_borrow : (subN a b cin).c = true ↔ borrows a b cin := decide_eq_true_iff

theorem addN_h : (addN a b cin).h = true ↔ 16 ≤ a.toNat % 16 + b.toNat % 16 + cin.toNat := decide_eq_true_iff

theorem subN_h : (subN a b cin).h = true ↔ a.toNat % 16 < b.toNat % 16 + cin.toNat := decide_eq_true_iff

theorem addN_isExact_without_carry (hn : 0 < n) : (addN a b false).IsExact (a.toInt + b.toInt) := by
  simpa using addN_isExact a b false hn

theorem subN_isExact_without_borrow (hn : 0 < n) : (subN a b false).IsExact (a.toInt - b.toInt) := by
  simpa using subN_isExact a b false hn

end

/-! ### O31, O32 -/

/-- Settles O31: each flag is its condition, and the two readings of V agree by the signs. -/
theorem additionHelper : Obligations.AdditionHelper := by
  intro n a b cin hwidth
  have hn : 0 < n := by omega
  exact ⟨BitVec.toNat_ofNat .., addN_c a b cin, (addN_isExact a b cin hn).zero, BitVec.msb_eq_getLsbD_last _, addN_v_signs a b cin,
    addN_v a b cin hn, addN_h a b cin⟩

/-- Settles O32: each flag is its condition on the operands. -/
theorem subtractionHelper : Obligations.SubtractionHelper := by
  intro n a b bin hwidth
  have hn : 0 < n := by omega
  exact ⟨subN_toNat a b bin, subN_borrow a b bin, (subN_isExact a b bin hn).zero, BitVec.msb_eq_getLsbD_last _, subN_v_signs a b bin,
    subN_h a b bin⟩

end Sys2Proof.Machine
end

section
/-! SUPPORT. Instructions that write an operand and then the flags: the operand reads back what was written, since the flags choose no
register and no address (spec/10_state.md R30; spec/40_addressing_modes.md R152). -/

namespace Sys2Proof.Machine

/-! ### Reads after an update of the flags -/

section
variable {s : State} {f : Fcw}

theorem State.reg_setFcw (hsn : f.sn = s.fcw.sn) (r : RegCode) : (s.setFcw f).reg r = s.reg r :=
  congrArg (fun j => s.gr[j]) (State.phys_congr (s := s) (t := s.setFcw f) rfl hsn r)

theorem State.rb_setFcw (hsn : f.sn = s.fcw.sn) (c : RegCode) : (s.setFcw f).rb c = s.rb c :=
  congrArg (byteOf c) (State.reg_setFcw hsn (byteHome c))

theorem State.rr_setFcw (hsn : f.sn = s.fcw.sn) (r : RegCode) : (s.setFcw f).rr r = s.rr r := by
  simp only [State.rr, State.reg_setFcw hsn]

theorem State.rq_setFcw (hsn : f.sn = s.fcw.sn) (r : RegCode) : (s.setFcw f).rq r = s.rq r := by
  simp only [State.rq, State.rr_setFcw hsn]

theorem State.ea_setFcw (hsn : f.sn = s.fcw.sn) (hseg : f.seg = s.fcw.seg) (m : MemOp) : (s.setFcw f).ea m = s.ea m := by
  have hsegmented : (s.setFcw f).segmented = s.segmented := by simp only [State.segmented, State.setFcw_cfg, State.setFcw_fcw, hseg]
  cases m with
  | ir r => simp only [State.ea, State.addrReg, hsegmented, State.reg_setFcw hsn, State.setFcw_pcSeg]
  | da a => rfl
  | x a r => exact congrArg (fun k => Except.ok ((s.addrOf a).plus k)) (State.reg_setFcw hsn r)

end

theorem FlagUpdate.sn {bits : List FcwBit} {f g : Fcw} (k : FlagUpdate bits f g) (hsn : .sn ∉ bits) : g.sn = f.sn := k.1 .sn hsn

/-! ### Operands written before the flags -/

/-- A width of operands that read back what is written to them; writes change no flag, and of the FCW reads look at SN alone (R30). -/
structure WidthOperand {n : Nat} (w : Width n) : Prop where
  back : WidthReadsBack w
  effect : ∃ home, WidthEffect w home
  get_setFcw : ∀ {s : State} {f : Fcw}, f.sn = s.fcw.sn → ∀ r, w.get (s.setFcw f) r = w.get s r
  load_setFcw : ∀ {s : State} {f : Fcw} {a : Address}, w.load (s.setFcw f) a = w.load s a

theorem byteOperand : WidthOperand byteWidth :=
  ⟨byteReadsBack, ⟨_, byteEffect⟩, fun h c => congrArg Except.ok (State.rb_setFcw h c), rfl⟩

theorem wordOperand : WidthOperand wordWidth :=
  ⟨wordReadsBack, ⟨_, wordEffect⟩, fun h r => congrArg Except.ok (State.reg_setFcw h r), rfl⟩

theorem longReadsBack : WidthReadsBack longWidth where
  set_get {s r x} v hget := by
    obtain ⟨_, hpair, _⟩ := bind_ok.1 hget
    have heven := needPair_ok.1 hpair
    exact ⟨_, longWidth_set_even heven, (longWidth_get_even heven).trans (congrArg Except.ok (s.rr_setRr r v))⟩
  store_load {s a x} v hwf hload := by
    obtain ⟨heven, _⟩ := readLong_ok.1 hload
    exact ⟨_, s.writeLong_of_even a v heven, readLong_ok.2 ⟨heven, s.longAt_putLong a v hwf⟩, rfl⟩

theorem longOperand : WidthOperand longWidth :=
  ⟨longReadsBack, ⟨_, longEffect⟩, fun h r => by simp only [longWidth, State.rr_setFcw h], rfl⟩

section
variable {n : Nat} {w : Width n} {s : State} {bits : List FcwBit}

theorem readRegMem_setFcw (W : WidthOperand w) {f : Fcw} (hsn : f.sn = s.fcw.sn) (hseg : f.seg = s.fcw.seg) (dst : RegMem) :
    readRegMem w (s.setFcw f) dst = readRegMem w s dst := by
  cases dst with
  | reg r => exact W.get_setFcw hsn r
  | mem m => simp only [readRegMem, State.ea_setFcw hsn hseg, W.load_setFcw]

/-- A register that can be read is written, and after the flags reads back. -/
theorem set_then_flags (W : WidthOperand w) {d : RegCode} {x : BitVec n} (v : BitVec n) {f : Fcw} (k : FlagUpdate bits s.fcw f)
    (hsn : .sn ∉ bits) (hget : w.get s d = .ok x) : ∃ u, w.set s d v = .ok u ∧ w.get (u.setFcw f) d = .ok v := by
  obtain ⟨u, hset, hback⟩ := W.back.set_get v hget
  obtain ⟨_, E⟩ := W.effect
  have hfcw : u.fcw = s.fcw := (E.set_ok hset).fcw.eq
  exact ⟨u, hset, (W.get_setFcw (hfcw ▸ k.sn hsn) d).trans hback⟩

/-- An operand that can be read is written, and after the flags reads back. -/
theorem write_then_flags (W : WidthOperand w) {dst : RegMem} {x : BitVec n} (v : BitVec n) {f : Fcw} (k : FlagUpdate bits s.fcw f)
    (hsn : .sn ∉ bits) (hwf : s.mem.wf = true) (hread : readRegMem w s dst = .ok x) :
    ∃ u, writeRegMem w s dst v = .ok u ∧ readRegMem w (u.setFcw f) dst = .ok v := by
  obtain ⟨u, hwrite, hback⟩ := readRegMem_writeRegMem W.back v hwf hread
  obtain ⟨_, E⟩ := W.effect
  have hfcw : u.fcw = s.fcw := (writeRegMem_effect E hwrite).fcw.eq
  exact ⟨u, hwrite, (readRegMem_setFcw W (hfcw ▸ k.sn hsn) (hfcw ▸ k.2) dst).trans hback⟩

end

end Sys2Proof.Machine
end

section
/-! SUPPORT. Addition, subtraction, comparison, increment, decrement and negation (spec/42_arithmetic.md R244 to R247, R253 to R259,
R264, R265). -/

namespace Sys2Proof.Machine

/-! ### The shared operations -/

section
variable {n : Nat} {w : Width n} {s : State} {bits : List FcwBit} {flags : Fcw → AluOut n → Fcw}

/-- An operation on a register and a source that can be read completes with its result in the register and its flags. -/
theorem aluReg_next (W : WidthOperand w) (op : BitVec n → BitVec n → AluOut n) (hflags : ∀ f o, FlagUpdate bits f (flags f o))
    (hsn : .sn ∉ bits) {d : RegCode} {src : Src n} {a b : BitVec n} (hget : w.get s d = .ok a) (hread : readSrc w s src = .ok b) :
    ∃ t, finish (aluReg w op flags d src s) = .next t ∧ w.get t d = .ok (op a b).r ∧ t.fcw = flags s.fcw (op a b) := by
  obtain ⟨u, hset, hback⟩ := set_then_flags W (op a b).r (hflags s.fcw (op a b)) hsn hget
  exact ⟨_, by simp only [aluReg, hget, hread, hset, bind_of_ok, finish_ok], hback, rfl⟩

/-- An operation on an operand that can be read completes with its result in the operand and its flags. -/
theorem aluRegMem_next (W : WidthOperand w) (op : BitVec n → AluOut n) (hflags : ∀ f o, FlagUpdate bits f (flags f o))
    (hsn : .sn ∉ bits) {dst : RegMem} {v : BitVec n} (hwf : s.mem.wf = true) (hread : readRegMem w s dst = .ok v) :
    ∃ t, finish (aluRegMem w op flags dst s) = .next t ∧ readRegMem w t dst = .ok (op v).r ∧ t.fcw = flags s.fcw (op v) := by
  obtain ⟨u, hwrite, hback⟩ := write_then_flags W (op v).r (hflags s.fcw (op v)) hsn hwf hread
  exact ⟨_, by simp only [aluRegMem, hread, hwrite, bind_of_ok, finish_ok], hback, rfl⟩

theorem compareReg_next {d : RegCode} {src : Src n} {a b : BitVec n} (hget : w.get s d = .ok a) (hread : readSrc w s src = .ok b) :
    finish (compareReg w d src s) = .next (compare a b s) := by
  simp only [compareReg, hget, hread, bind_of_ok, finish_ok]

theorem compareMem_next {dst : MemOp} {v x : BitVec n} {a : Address} (hea : s.ea dst = .ok a) (hload : w.load s a = .ok x) :
    finish (compareMem w dst v s) = .next (compare x v s) := by
  simp only [compareMem, hea, hload, bind_of_ok, finish_ok]

end

/-- The result and the flags of an exact adder, in an FCW that takes Z, S and P/V from it. -/
theorem AluOut.IsExact.isResult {n : Nat} {o : AluOut n} {x : Int} (h : o.IsExact x) {f : Fcw} (hz : f.z = o.z) (hs : f.s = o.s)
    (hv : f.pv = o.v) : IsResult x o.r f where
  value := h.value
  zero := hz ▸ h.zero
  sign := by rw [hs, h.sign, msb_iff_neg]
  overflow := hv ▸ h.overflow

/-! ### The three widths -/

section
variable {s : State} {d : RegCode} {x : Int}

theorem aluReg_word {src : Src 16} {b : Word} (op : Word → Word → AluOut 16) (hread : readSrc wordWidth s src = .ok b)
    (hexact : (op (s.reg d) b).IsExact x) :
    ∃ t, finish (aluReg wordWidth op Fcw.arith d src s) = .next t ∧ IsResult x (t.reg d) t.fcw ∧ t.fcw = s.fcw.arith (op (s.reg d) b) := by
  obtain ⟨t, hnext, hget, hfcw⟩ := aluReg_next wordOperand op Fcw.arith_update (by simp) (d := d) rfl hread
  have hreg : t.reg d = (op (s.reg d) b).r := Except.ok.inj hget
  refine ⟨t, hnext, ?_, hfcw⟩
  rw [hreg, hfcw]
  exact hexact.isResult rfl rfl rfl

theorem aluReg_long {src : Src 32} {b : Long} (op : Long → Long → AluOut 32) (hd : d.getLsbD 0 = false)
    (hread : readSrc longWidth s src = .ok b) (hexact : (op (s.rr d) b).IsExact x) :
    ∃ t, finish (aluReg longWidth op Fcw.arith d src s) = .next t ∧ IsResult x (t.rr d) t.fcw ∧ t.fcw = s.fcw.arith (op (s.rr d) b) := by
  obtain ⟨t, hnext, hget, hfcw⟩ := aluReg_next longOperand op Fcw.arith_update (by simp) (longWidth_get_even hd) hread
  rw [longWidth_get_even hd] at hget
  have hreg : t.rr d = (op (s.rr d) b).r := Except.ok.inj hget
  refine ⟨t, hnext, ?_, hfcw⟩
  rw [hreg, hfcw]
  exact hexact.isResult rfl rfl rfl

theorem aluReg_byte {src : Src 8} {b : Byte} (op : Byte → Byte → AluOut 8) {flags : Fcw → AluOut 8 → Fcw}
    (hflags : ∀ f o, FlagUpdate [.c, .z, .s, .pv, .da, .h] f (flags f o)) (hread : readSrc byteWidth s src = .ok b) :
    ∃ t, finish (aluReg byteWidth op flags d src s) = .next t ∧ t.rb d = (op (s.rb d) b).r ∧ t.fcw = flags s.fcw (op (s.rb d) b) := by
  obtain ⟨t, hnext, hget, hfcw⟩ := aluReg_next byteOperand op hflags (by simp) (d := d) rfl hread
  exact ⟨t, hnext, Except.ok.inj hget, hfcw⟩

/-- A byte addition clears DA and sets H (R244, R245). -/
theorem addReg_byte {src : Src 8} {b : Byte} (cin : Bool) (hread : readSrc byteWidth s src = .ok b) :
    ∃ t, finish (aluReg byteWidth (fun a b => addN a b cin) Fcw.arithAddByte d src s) = .next t ∧
      IsResult ((s.rb d).toInt + b.toInt + cin.toNat) (t.rb d) t.fcw ∧ (t.fcw.c = true ↔ carries (s.rb d) b cin) ∧ t.fcw.da = false ∧
      (t.fcw.h = true ↔ 16 ≤ (s.rb d).toNat % 16 + b.toNat % 16 + cin.toNat) := by
  obtain ⟨t, hnext, hreg, hfcw⟩ := aluReg_byte (d := d) (fun a b => addN a b cin) Fcw.arithAddByte_update hread
  refine ⟨t, hnext, ?_⟩
  rw [hreg, hfcw]
  exact ⟨(addN_isExact _ b cin (by decide)).isResult rfl rfl rfl, addN_c .., rfl, addN_h ..⟩

/-- A byte subtraction sets DA and H (R264, R265). -/
theorem subReg_byte {src : Src 8} {b : Byte} (bin : Bool) (hread : readSrc byteWidth s src = .ok b) :
    ∃ t, finish (aluReg byteWidth (fun a b => subN a b bin) Fcw.arithSubByte d src s) = .next t ∧
      IsResult ((s.rb d).toInt - b.toInt - bin.toNat) (t.rb d) t.fcw ∧ (t.fcw.c = true ↔ borrows (s.rb d) b bin) ∧ t.fcw.da = true ∧
      (t.fcw.h = true ↔ (s.rb d).toNat % 16 < b.toNat % 16 + bin.toNat) := by
  obtain ⟨t, hnext, hreg, hfcw⟩ := aluReg_byte (d := d) (fun a b => subN a b bin) Fcw.arithSubByte_update hread
  refine ⟨t, hnext, ?_⟩
  rw [hreg, hfcw]
  exact ⟨(subN_isExact _ b bin (by decide)).isResult rfl rfl rfl, subN_borrow .., rfl, subN_h ..⟩

end

/-! ### O33, O34 -/

/-- Settles O33: each instruction is `addN` at its width, and the flags are those of the adder. -/
theorem additionsAddAndSetFlags : Obligations.AdditionsAddAndSetFlags := by
  refine ⟨fun s d src b hread => ?add, fun s d src b hread => ?addb, fun s d src b hd hread => ?addl, fun s d r => ?adc,
    fun s d r => addReg_byte (s := s) (d := d) (src := .reg r) s.fcw.c rfl⟩
  case add =>
    obtain ⟨t, hnext, hresult, hfcw⟩ :=
      aluReg_word (d := d) (fun a b => addN a b false) hread (addN_isExact_without_carry (s.reg d) b (by decide))
    exact ⟨t, hnext, hresult, hfcw ▸ addN_c ..⟩
  case addb =>
    obtain ⟨t, hnext, hresult, hflags⟩ := addReg_byte (d := d) false hread
    exact ⟨t, hnext, by simpa using hresult, hflags⟩
  case addl =>
    obtain ⟨t, hnext, hresult, hfcw⟩ :=
      aluReg_long (fun a b => addN a b false) hd hread (addN_isExact_without_carry (s.rr d) b (by decide))
    exact ⟨t, hnext, hresult, hfcw ▸ addN_c ..⟩
  case adc =>
    obtain ⟨t, hnext, hresult, hfcw⟩ :=
      aluReg_word (d := d) (src := .reg r) (fun a b => addN a b s.fcw.c) rfl (addN_isExact (s.reg d) (s.reg r) s.fcw.c (by decide))
    exact ⟨t, hnext, hresult, hfcw ▸ addN_c ..⟩

/-- Settles O34: each instruction is `subN` at its width, and the flags are those of the subtracter. -/
theorem subtractionsSubtractAndSetFlags : Obligations.SubtractionsSubtractAndSetFlags := by
  refine ⟨fun s d src b hread => ?sub, fun s d src b hread => ?subb, fun s d src b hd hread => ?subl, fun s d r => ?sbc,
    fun s d r => subReg_byte (s := s) (d := d) (src := .reg r) s.fcw.c rfl⟩
  case sub =>
    obtain ⟨t, hnext, hresult, hfcw⟩ :=
      aluReg_word (d := d) (fun a b => subN a b false) hread (subN_isExact_without_borrow (s.reg d) b (by decide))
    exact ⟨t, hnext, hresult, hfcw ▸ subN_borrow ..⟩
  case subb =>
    obtain ⟨t, hnext, hresult, hflags⟩ := subReg_byte (d := d) false hread
    exact ⟨t, hnext, by simpa using hresult, hflags⟩
  case subl =>
    obtain ⟨t, hnext, hresult, hfcw⟩ :=
      aluReg_long (fun a b => subN a b false) hd hread (subN_isExact_without_borrow (s.rr d) b (by decide))
    exact ⟨t, hnext, hresult, hfcw ▸ subN_borrow ..⟩
  case sbc =>
    obtain ⟨t, hnext, hresult, hfcw⟩ :=
      aluReg_word (d := d) (src := .reg r) (fun a b => subN a b s.fcw.c) rfl (subN_isExact (s.reg d) (s.reg r) s.fcw.c (by decide))
    exact ⟨t, hnext, hresult, hfcw ▸ subN_borrow ..⟩

/-! ### O35 -/

/-- What a comparison leaves: the flags of the difference, the registers and the memory as before (R246, R247). -/
theorem compare_flags {n : Nat} (hn : 0 < n) (a b : BitVec n) (s : State) :
    IsResult (a.toInt - b.toInt) (subN a b false).r (compare a b s).fcw ∧ ((compare a b s).fcw.c = true ↔ borrows a b false) ∧
      (compare a b s).gr = s.gr ∧ (compare a b s).mem = s.mem :=
  ⟨(subN_isExact_without_borrow a b hn).isResult rfl rfl rfl, subN_borrow a b false, rfl, rfl⟩

/-- Settles O35: every form compares what its operands read. -/
theorem comparesSetFlagsOnly : Obligations.ComparesSetFlagsOnly := by
  refine ⟨fun s d src b hread => ?cp, fun s d src b hread => ?cpb, fun s d src b hd hread => ?cpl, fun s dst v a hea heven => ?cpMem,
    fun s dst v a hea => ?cpbMem⟩
  case cp => exact ⟨_, _, compareReg_next rfl hread, compare_flags (by decide) _ b s⟩
  case cpb => exact ⟨_, _, compareReg_next rfl hread, compare_flags (by decide) _ b s⟩
  case cpl => exact ⟨_, _, compareReg_next (longWidth_get_even hd) hread, compare_flags (by decide) (s.rr d) b s⟩
  case cpMem => exact ⟨_, _, compareMem_next hea (load_even heven).1, compare_flags (by decide) _ v s⟩
  case cpbMem => exact ⟨_, _, compareMem_next hea rfl, compare_flags (by decide) _ v s⟩

/-! ### O36 -/

/-- A count of 1 to 16 is a positive signed number at 8 bits and more. -/
theorem countOf_toInt {n : Nat} (k : BitVec 4) (hn : 6 ≤ n) : (countOf n k).toInt = k.toNat + 1 := by
  have hk := k.isLt
  have hpow : 2 ^ 6 ≤ 2 ^ n := Nat.pow_le_pow_right (by decide) hn
  rw [countOf, BitVec.toInt_eq_toNat_of_lt] <;> rw [BitVec.toNat_ofNat, Nat.mod_eq_of_lt (by omega)]
  · exact Nat.cast_succ _
  · omega

/-- The difference from 0, of which the borrow says that the operand is not 0 (R259). -/
theorem subN_zero_isExact {n : Nat} (hn : 0 < n) (v : BitVec n) : (subN 0 v false).IsExact (-v.toInt) := by
  simpa using subN_isExact_without_borrow 0 v hn

theorem subN_zero_c {n : Nat} (v : BitVec n) : (subN 0 v false).c = true ↔ v ≠ 0 := by
  rw [subN_c, decide_eq_true_iff, Ne, ← BitVec.toNat_inj]
  exact Nat.pos_iff_ne_zero

section
variable {n : Nat} {w : Width n} {s : State} {dst : RegMem} {v : BitVec n}

/-- INC and DEC change an operand that can be read by their count (R253, R255). -/
theorem step_operand (W : WidthOperand w) (hn : 6 ≤ n) (k : BitVec 4) (hwf : s.mem.wf = true) (hread : readRegMem w s dst = .ok v) :
    (∃ t r, finish (aluRegMem w (fun x => addN x (countOf n k) false) Fcw.step dst s) = .next t ∧ readRegMem w t dst = .ok r ∧
      IsResult (v.toInt + (k.toNat + 1)) r t.fcw) ∧
    (∃ t r, finish (aluRegMem w (fun x => subN x (countOf n k) false) Fcw.step dst s) = .next t ∧ readRegMem w t dst = .ok r ∧
      IsResult (v.toInt - (k.toNat + 1)) r t.fcw) := by
  have hpos : 0 < n := by omega
  rw [← countOf_toInt k hn]
  constructor
  · obtain ⟨t, hnext, hback, hfcw⟩ := aluRegMem_next W (fun x => addN x (countOf n k) false) Fcw.step_update (by simp) hwf hread
    exact ⟨t, _, hnext, hback, hfcw ▸ (addN_isExact_without_carry v _ hpos).isResult rfl rfl rfl⟩
  · obtain ⟨t, hnext, hback, hfcw⟩ := aluRegMem_next W (fun x => subN x (countOf n k) false) Fcw.step_update (by simp) hwf hread
    exact ⟨t, _, hnext, hback, hfcw ▸ (subN_isExact_without_borrow v _ hpos).isResult rfl rfl rfl⟩

/-- NEG subtracts an operand that can be read from 0 (R259). -/
theorem negate_operand (W : WidthOperand w) (hn : 0 < n) (hwf : s.mem.wf = true) (hread : readRegMem w s dst = .ok v) :
    ∃ t r, finish (aluRegMem w (fun x => subN 0 x false) Fcw.arith dst s) = .next t ∧ readRegMem w t dst = .ok r ∧
      IsResult (-v.toInt) r t.fcw ∧ (t.fcw.c = true ↔ v ≠ 0) := by
  obtain ⟨t, hnext, hback, hfcw⟩ := aluRegMem_next W (fun x => subN 0 x false) Fcw.arith_update (by simp) hwf hread
  exact ⟨t, _, hnext, hback, hfcw ▸ (subN_zero_isExact hn v).isResult rfl rfl rfl, hfcw ▸ subN_zero_c v⟩

end

/-- Settles O36: at both widths the operand is stepped by its count and negated. -/
theorem incrementDecrementNegate : Obligations.IncrementDecrementNegate := by
  refine ⟨fun s dst k v hwf hread => ?word, fun s dst k v hwf hread => ?byte⟩
  case word =>
    obtain ⟨hinc, hdec⟩ := step_operand wordOperand (by decide) k hwf hread
    exact ⟨hinc, hdec, negate_operand wordOperand (by decide) hwf hread⟩
  case byte =>
    obtain ⟨hinc, hdec⟩ := step_operand byteOperand (by decide) k hwf hread
    exact ⟨hinc, hdec, negate_operand byteOperand (by decide) hwf hread⟩

end Sys2Proof.Machine
end

section
/-! SUPPORT. Multiplication, division and sign extension (spec/42_arithmetic.md R254, R257, R258, R261, R262). -/

namespace Sys2Proof.Machine

/-! ### Pairs and quadruples as operands -/

theorem loWord_rr (s : State) (d : RegCode) : loWord (s.rr d) = s.reg (d + 1) := loWord_append _ _

theorem hiWord_rr (s : State) (d : RegCode) : hiWord (s.rr d) = s.reg d := hiWord_append _ _

theorem loLong_rq (s : State) (d : RegCode) : loLong (s.rq d) = s.rr (d + 2) := loLong_append _ _

theorem hiLong_rq (s : State) (d : RegCode) : hiLong (s.rq d) = s.rr d := hiLong_append _ _

/-- A pair that is written reads back after the flags. -/
theorem State.rr_setRr_setFcw (s : State) {f : Fcw} (hsn : f.sn = s.fcw.sn) (d : RegCode) (v : Long) :
    ((s.setRr d v).setFcw f).rr d = v :=
  (State.rr_setFcw (s := s.setRr d v) hsn d).trans (s.rr_setRr d v)

/-- A quadruple that is written reads back after the flags. -/
theorem State.rq_setRq_setFcw (s : State) {f : Fcw} (hsn : f.sn = s.fcw.sn) (d : RegCode) (v : Quad) :
    ((s.setRq d v).setFcw f).rq d = v :=
  (State.rq_setFcw (s := s.setRq d v) hsn d).trans (s.rq_setRq d v)

section
variable {s : State} {d : RegCode}

theorem getQuad_multiple (h0 : d.getLsbD 0 = false) (h1 : d.getLsbD 1 = false) : s.getQuad d = .ok (s.rq d) :=
  bind_ok.2 ⟨(), needQuad_ok.2 ⟨h0, h1⟩, rfl⟩

theorem putQuad_multiple (h0 : d.getLsbD 0 = false) (h1 : d.getLsbD 1 = false) (v : Quad) : s.putQuad d v = .ok (s.setRq d v) :=
  bind_ok.2 ⟨(), needQuad_ok.2 ⟨h0, h1⟩, rfl⟩

end

/-! ### O37 -/

/-- A product of two numbers of n bits fits twice the width. -/
theorem fitsSigned_mul {n : Nat} (hn : 0 < n) (a b : BitVec n) : fitsSigned (2 * n) (a.toInt * b.toInt) := by
  have hpow : (2 : Int) ^ (n * 2 - 2) < 2 ^ (2 * n - 1) := pow_lt_pow_right₀ (by decide) (by omega)
  have hlow : -2 ^ (n * 2 - 2) ≤ a.toInt * b.toInt := BitVec.le_toInt_mul_toInt
  have hhigh : a.toInt * b.toInt ≤ 2 ^ (n * 2 - 2) := BitVec.toInt_mul_toInt_le
  unfold fitsSigned
  omega

theorem product_toInt {n : Nat} (hn : 0 < n) (a b : BitVec n) : (BitVec.ofInt (2 * n) (a.toInt * b.toInt)).toInt = a.toInt * b.toInt :=
  toInt_ofInt_of_fits (by omega) (fitsSigned_mul hn a b)

section
variable {s : State} {d : RegCode} {p : Int}

/-- MULT multiplies the low word of the pair (R257). -/
theorem execMult_next {src : Src 16} {b : Word} (hd : d.getLsbD 0 = false) (hread : readSrc wordWidth s src = .ok b)
    (hp : (s.reg (d + 1)).toInt * b.toInt = p) :
    ∃ t, execMult d src s = .next t ∧ t.rr d = BitVec.ofInt 32 p ∧ t.fcw = s.fcw.exact (outOfRange 16 p) p := by
  have hget : longWidth.get s d = .ok (s.rr d) := longWidth_get_even hd
  have hback := s.rr_setRr_setFcw (f := s.fcw.exact (outOfRange 16 p) p) rfl d (BitVec.ofInt 32 p)
  exact ⟨_, by simp only [execMult, hget, hread, loWord_rr, hp, longWidth_set_even hd, bind_of_ok, finish_ok], hback, rfl⟩

/-- MULTL multiplies the low long word of the quadruple (R258). -/
theorem execMultl_next {src : Src 32} {b : Long} (h0 : d.getLsbD 0 = false) (h1 : d.getLsbD 1 = false)
    (hread : readSrc longWidth s src = .ok b) (hp : (s.rr (d + 2)).toInt * b.toInt = p) :
    ∃ t, execMultl d src s = .next t ∧ t.rq d = BitVec.ofInt 64 p ∧ t.fcw = s.fcw.exact (outOfRange 32 p) p := by
  have hback := s.rq_setRq_setFcw (f := s.fcw.exact (outOfRange 32 p) p) rfl d (BitVec.ofInt 64 p)
  exact ⟨_, by simp only [execMultl, getQuad_multiple h0 h1, hread, loLong_rq, hp, putQuad_multiple h0 h1, bind_of_ok, finish_ok], hback, rfl⟩

end

/-- The flags of an exact product or quotient (R257, R258, R261). -/
theorem Fcw.exact_flags (f : Fcw) (n : Nat) (p : Int) :
    ((f.exact (outOfRange n p) p).c = true ↔ ¬ fitsSigned n p) ∧ ((f.exact (outOfRange n p) p).z = true ↔ p = 0) ∧
      ((f.exact (outOfRange n p) p).s = true ↔ p < 0) ∧ (f.exact (outOfRange n p) p).pv = false :=
  ⟨outOfRange_iff n p, decide_eq_true_iff, decide_eq_true_iff, rfl⟩

/-- Settles O37: the destination has room for the exact product, and the flags are set from it. -/
theorem multiplicationIsExact : Obligations.MultiplicationIsExact := by
  refine ⟨fun s d src b hd hread => ?mult, fun s d src b h0 h1 hread => ?multl⟩
  case mult =>
    obtain ⟨t, hnext, hpair, hfcw⟩ := execMult_next hd hread rfl
    refine ⟨t, hnext, ?_⟩
    rw [hpair, hfcw, product_toInt (n := 16) (by decide)]
    exact ⟨rfl, Fcw.exact_flags s.fcw 16 _⟩
  case multl =>
    obtain ⟨t, hnext, hquad, hfcw⟩ := execMultl_next h0 h1 hread rfl
    refine ⟨t, hnext, ?_⟩
    rw [hquad, hfcw, product_toInt (n := 32) (by decide)]
    exact ⟨rfl, Fcw.exact_flags s.fcw 32 _⟩

/-! ### O38 -/

/-- A divisor of 0 and a quotient that does not fit are refused (R261, R262). -/
theorem divide_refused {n : Nat} {x : Int} {m : BitVec n} (h : m = 0 ∨ ¬ fitsSigned n (x.tdiv m.toInt)) :
    divide n x m.toInt = .error .divideCornerCase := by
  unfold divide
  rcases h with hzero | hfit
  · rw [if_pos (by simp [hzero])]
  · rw [if_pos ((outOfRange_iff _ _).2 hfit), ite_self]

theorem divide_ok {n : Nat} {x : Int} {m : BitVec n} (hm : m ≠ 0) (hfit : fitsSigned n (x.tdiv m.toInt)) :
    divide n x m.toInt = .ok (x.tdiv m.toInt, x.tmod m.toInt) := by
  have hm' : m.toInt ≠ 0 := fun h => hm (BitVec.toInt_inj.1 (by simpa using h))
  rw [divide, if_neg hm', if_neg fun hout => (outOfRange_iff _ _).1 hout hfit]

/-- A remainder is smaller than its divisor, so it fits where the divisor does. -/
theorem fitsSigned_tmod {n : Nat} (x : Int) {m : BitVec n} (hm : m ≠ 0) : fitsSigned n (x.tmod m.toInt) := by
  have hm' : m.toInt ≠ 0 := fun h => hm (BitVec.toInt_inj.1 (by simpa using h))
  obtain ⟨hlow, hhigh⟩ := fitsSigned_toInt m
  have hsmall : (x.tmod m.toInt).natAbs < m.toInt.natAbs := by
    rw [Int.natAbs_tmod]
    exact Nat.mod_lt _ (Int.natAbs_pos.2 hm')
  unfold fitsSigned
  omega

/-- A quotient that fits and its remainder, read from halves of n bits, are those of the exact division. -/
theorem quotient_and_remainder {n : Nat} (hn : 0 < n) {x : Int} {m q rem : BitVec n} (hm : m ≠ 0) (hfit : fitsSigned n (x.tdiv m.toInt))
    (hq : q = BitVec.ofInt n (x.tdiv m.toInt)) (hrem : rem = BitVec.ofInt n (x.tmod m.toInt)) :
    q.toInt = x.tdiv m.toInt ∧ x = q.toInt * m.toInt + rem.toInt := by
  rw [hq, hrem, toInt_ofInt_of_fits hn hfit, toInt_ofInt_of_fits hn (fitsSigned_tmod x hm)]
  exact ⟨rfl, (Int.tdiv_mul_add_tmod x m.toInt).symm⟩

/-- The flags of a quotient are those of the half that holds it. -/
theorem quotient_flags {n : Nat} (f : Fcw) {x : Int} {q : BitVec n} (hq : q.toInt = x) :
    (f.exact false x).c = false ∧ ((f.exact false x).z = true ↔ q = 0) ∧ ((f.exact false x).s = true ↔ q.toInt < 0) ∧
      (f.exact false x).pv = false := by
  rw [← BitVec.toInt_inj, hq, show (0 : BitVec n).toInt = 0 from BitVec.toInt_zero]
  exact ⟨rfl, decide_eq_true_iff, decide_eq_true_iff, rfl⟩

section
variable {s : State} {d : RegCode} {q rem : Int} {e : Refusal}

/-- DIV writes the remainder to the high word of the pair and the quotient to the low one (R261). -/
theorem execDiv_next {src : Src 16} {b : Word} (hd : d.getLsbD 0 = false) (hread : readSrc wordWidth s src = .ok b)
    (hdiv : divide 16 (s.rr d).toInt b.toInt = .ok (q, rem)) :
    ∃ t, execDiv d src s = .next t ∧ t.reg d = BitVec.ofInt 16 rem ∧ t.reg (d + 1) = BitVec.ofInt 16 q ∧ t.fcw = s.fcw.exact false q := by
  have hget : longWidth.get s d = .ok (s.rr d) := longWidth_get_even hd
  have hback := s.rr_setRr_setFcw (f := s.fcw.exact false q) rfl d (BitVec.ofInt 16 rem ++ BitVec.ofInt 16 q)
  refine ⟨(s.setRr d (BitVec.ofInt 16 rem ++ BitVec.ofInt 16 q)).setFcw (s.fcw.exact false q), ?_, ?_, ?_, rfl⟩
  · simp only [execDiv, hget, hread, hdiv, longWidth_set_even hd, bind_of_ok, finish_ok]
  · rw [← hiWord_rr, hback, hiWord_append]
  · rw [← loWord_rr, hback, loWord_append]

theorem execDiv_refused {src : Src 16} {b : Word} (hd : d.getLsbD 0 = false) (hread : readSrc wordWidth s src = .ok b)
    (hdiv : divide 16 (s.rr d).toInt b.toInt = .error e) : execDiv d src s = .refused e := by
  have hget : longWidth.get s d = .ok (s.rr d) := longWidth_get_even hd
  simp only [execDiv, hget, hread, hdiv, bind_of_ok, bind_of_error, finish_error]

/-- DIVL writes the remainder to the high long word of the quadruple and the quotient to the low one (R262). -/
theorem execDivl_next {src : Src 32} {b : Long} (h0 : d.getLsbD 0 = false) (h1 : d.getLsbD 1 = false)
    (hread : readSrc longWidth s src = .ok b) (hdiv : divide 32 (s.rq d).toInt b.toInt = .ok (q, rem)) :
    ∃ t, execDivl d src s = .next t ∧ t.rr d = BitVec.ofInt 32 rem ∧ t.rr (d + 2) = BitVec.ofInt 32 q ∧ t.fcw = s.fcw.exact false q := by
  have hback := s.rq_setRq_setFcw (f := s.fcw.exact false q) rfl d (BitVec.ofInt 32 rem ++ BitVec.ofInt 32 q)
  refine ⟨(s.setRq d (BitVec.ofInt 32 rem ++ BitVec.ofInt 32 q)).setFcw (s.fcw.exact false q), ?_, ?_, ?_, rfl⟩
  · simp only [execDivl, getQuad_multiple h0 h1, hread, hdiv, putQuad_multiple h0 h1, bind_of_ok, finish_ok]
  · rw [← hiLong_rq, hback, hiLong_append]
  · rw [← loLong_rq, hback, loLong_append]

theorem execDivl_refused {src : Src 32} {b : Long} (h0 : d.getLsbD 0 = false) (h1 : d.getLsbD 1 = false)
    (hread : readSrc longWidth s src = .ok b) (hdiv : divide 32 (s.rq d).toInt b.toInt = .error e) : execDivl d src s = .refused e := by
  simp only [execDivl, getQuad_multiple h0 h1, hread, hdiv, bind_of_ok, bind_of_error, finish_error]

end

/-- Settles O38: `divide` refuses the corner cases, and its quotient and remainder fit the halves of the destination. -/
theorem divisionGivesQuotientAndRemainder : Obligations.DivisionGivesQuotientAndRemainder := by
  refine ⟨fun s d src b hd hread => ⟨fun hcorner => execDiv_refused hd hread (divide_refused hcorner), fun hb hfit => ?div⟩,
    fun s d src b h0 h1 hread => ⟨fun hcorner => execDivl_refused h0 h1 hread (divide_refused hcorner), fun hb hfit => ?divl⟩⟩
  case div =>
    obtain ⟨t, hnext, hrem, hquot, hfcw⟩ := execDiv_next hd hread (divide_ok hb hfit)
    obtain ⟨hq, hx⟩ := quotient_and_remainder (by decide) hb hfit hquot hrem
    exact ⟨t, hnext, hq, hx, hfcw ▸ quotient_flags s.fcw hq⟩
  case divl =>
    obtain ⟨t, hnext, hrem, hquot, hfcw⟩ := execDivl_next h0 h1 hread (divide_ok hb hfit)
    obtain ⟨hq, hx⟩ := quotient_and_remainder (by decide) hb hfit hquot hrem
    exact ⟨t, hnext, hq, hx, hfcw ▸ quotient_flags s.fcw hq⟩

/-! ### O39 -/

theorem execExts_next {s : State} {d : RegCode} (hd : d.getLsbD 0 = false) :
    execExts d s = .next (s.setRr d ((s.reg (d + 1)).signExtend 32)) := by
  have hget : longWidth.get s d = .ok (s.rr d) := longWidth_get_even hd
  simp only [execExts, hget, longWidth_set_even hd, loWord_rr, bind_of_ok, finish_ok]

theorem execExtsl_next {s : State} {d : RegCode} (h0 : d.getLsbD 0 = false) (h1 : d.getLsbD 1 = false) :
    execExtsl d s = .next (s.setRq d ((s.rr (d + 2)).signExtend 64)) := by
  simp only [execExtsl, getQuad_multiple h0 h1, putQuad_multiple h0 h1, loLong_rq, bind_of_ok, finish_ok]

/-- Settles O39: a sign extension keeps the signed value. -/
theorem signExtension : Obligations.SignExtension := by
  refine ⟨fun s d => ⟨_, rfl, ?extsb⟩, fun s d hd => ⟨_, execExts_next hd, ?exts⟩, fun s d h0 h1 => ⟨_, execExtsl_next h0 h1, ?extsl⟩⟩
  case extsb =>
    rw [State.reg_setReg_same]
    exact BitVec.toInt_signExtend_of_le (by decide)
  case exts => rw [State.rr_setRr, BitVec.toInt_signExtend_of_le (by decide)]
  case extsl => rw [State.rq_setRq, BitVec.toInt_signExtend_of_le (by decide)]

end Sys2Proof.Machine
end

section
/-! SUPPORT. Decimal adjustment (spec/42_arithmetic.md R244, R252, R264): the table as a formula, and ADCB or SBCB then DAB on decimal
digits. -/

namespace Sys2Proof.Machine

/-! ### The table as a formula -/

/-- Each row for an addition covers low digits on one side of 9 and bytes on one side of 0x99, or a carry; what it adds is decided
by that. -/
theorem dabTable_add_row : ∀ row ∈ dabTable, row.da = false →
    row.add = (if row.h = true ∨ 9 < row.loMin then 0x06 else 0) + (if row.cAfter = true then 0x60 else 0) ∧
    (9 < row.loMin ∨ row.loMax ≤ 9) ∧ (row.cAfter = true → row.c = true ∨ 0x99 < 16 * row.hiMin + row.loMin) ∧
    (row.cAfter = false → row.c = false ∧ 16 * row.hiMax + row.loMax ≤ 0x99) := by
  decide

/-- What a row for a subtraction adds is decided by its flags. -/
theorem dabTable_sub_row : ∀ row ∈ dabTable, row.da = true →
    row.add = -(if row.h = true then 0x06 else 0) - (if row.c = true then 0x60 else 0) ∧ row.cAfter = row.c := by
  decide

theorem DabRow.fits_iff {row : DabRow} {da c h : Bool} {v : Byte} : row.fits da c h v = true ↔
    row.da = da ∧ row.c = c ∧ row.h = h ∧ (row.hiMin ≤ v.toNat / 16 ∧ v.toNat / 16 ≤ row.hiMax) ∧
      (row.loMin ≤ v.toNat % 16 ∧ v.toNat % 16 ≤ row.loMax) := by
  simp only [DabRow.fits, Bool.and_eq_true, beq_iff_eq, decide_eq_true_iff, and_assoc]

theorem fits_of_dabRow {da c h : Bool} {v : Byte} {row : DabRow} (hfind : dabRow da c h v = some row) :
    row ∈ dabTable ∧ row.fits da c h v = true := by
  unfold dabRow at hfind
  exact ⟨List.mem_of_find?_eq_some hfind, by simpa using List.find?_some hfind⟩

/-- The byte that R252 gives after an addition (DA = 0) or a subtraction (DA = 1). -/
def adjusted (da c h : Bool) (v : Byte) : Byte :=
  if da then v - (if h then 0x06 else 0) - (if c then 0x60 else 0)
  else v + (if h = true ∨ 9 < v.toNat % 16 then 0x06 else 0) + (if c = true ∨ 0x99 < v.toNat then 0x60 else 0)

/-- A row that fits gives the adjusted byte and the carry of R252. -/
theorem row_eq_adjusted {row : DabRow} {da c h : Bool} {v : Byte} (hmem : row ∈ dabTable) (hfits : row.fits da c h v = true) :
    v + row.add = adjusted da c h v ∧ (row.cAfter = true ↔ c = true ∨ (da = false ∧ 0x99 < v.toNat)) := by
  obtain ⟨rfl, rfl, rfl, ⟨hhiMin, hhiMax⟩, hloMin, hloMax⟩ := DabRow.fits_iff.1 hfits
  unfold adjusted
  cases hda : row.da
  case false =>
    obtain ⟨hadd, hlow, hset, hclear⟩ := dabTable_add_row row hmem hda
    have hlow' : 9 < row.loMin ↔ 9 < v.toNat % 16 := by omega
    have hafter : row.cAfter = true ↔ row.c = true ∨ 0x99 < v.toNat := by
      cases hca : row.cAfter with
      | true => exact iff_of_true rfl ((hset hca).imp_right fun h => by omega)
      | false =>
        obtain ⟨hc, hbelow⟩ := hclear hca
        exact iff_of_false Bool.false_ne_true (not_or.2 ⟨by rw [hc]; exact Bool.false_ne_true, by omega⟩)
    simp only [hadd, hlow', hafter, true_and, BitVec.add_assoc, Bool.false_eq_true, if_false, and_self]
  case true =>
    obtain ⟨hadd, hafter⟩ := dabTable_sub_row row hmem hda
    simp only [hadd, hafter, BitVec.sub_eq_add_neg, BitVec.add_assoc, if_true, Bool.true_eq_false, false_and, or_false, and_self]

/-! ### O40 -/

section
variable {s : State} {d : RegCode}

/-- DAB on the inputs of a row adds what the row says (R252). -/
theorem execDab_row {row : DabRow} (hfind : dabRow s.fcw.da s.fcw.c s.fcw.h (s.rb d) = some row) :
    execDab d s = .next ((s.drawn.setRb d (s.rb d + row.add)).setFcw
      { s.fcw with c := row.cAfter, z := s.rb d + row.add == 0, s := (s.rb d + row.add).msb, pv := s.freeBit }) := by
  simp only [execDab, hfind, finish_ok]

/-- DAB on the inputs of no row draws (R252). -/
theorem execDab_no_row (hnone : dabRow s.fcw.da s.fcw.c s.fcw.h (s.rb d) = none) : ∃ t, execDab d s = .next t := by
  simp only [execDab, hnone, finish_ok, Host.Outcome.next.injEq, exists_eq']

/-- DAB on the inputs of a row leaves the adjusted byte and its flags. -/
theorem execDab_adjusts (hrow : (dabRow s.fcw.da s.fcw.c s.fcw.h (s.rb d)).isSome = true) :
    ∃ t, execDab d s = .next t ∧ t.rb d = adjusted s.fcw.da s.fcw.c s.fcw.h (s.rb d) ∧
      (t.fcw.c = true ↔ s.fcw.c = true ∨ (s.fcw.da = false ∧ 0x99 < (s.rb d).toNat)) ∧
      (t.fcw.z = true ↔ t.rb d = 0) ∧ (t.fcw.s = true ↔ (t.rb d).toInt < 0) := by
  obtain ⟨row, hfind⟩ := Option.isSome_iff_exists.1 hrow
  obtain ⟨hmem, hfits⟩ := fits_of_dabRow hfind
  obtain ⟨hvalue, hcarry⟩ := row_eq_adjusted hmem hfits
  refine ⟨_, execDab_row hfind, ?_⟩
  rw [State.rb_setFcw, State.rb_setRb_same]
  · exact ⟨hvalue, hcarry, beq_iff_eq, msb_iff_neg (s.rb d + row.add)⟩
  · rfl

end

/-- Settles O40: DAB completes with and without a row, and a row gives the formula. -/
theorem decimalAdjust : Obligations.DecimalAdjust := by
  intro s d
  cases hrow : dabRow s.fcw.da s.fcw.c s.fcw.h (s.rb d) with
  | none =>
    obtain ⟨t, hnext⟩ := execDab_no_row hrow
    exact ⟨t, hnext, fun h => absurd h (by decide)⟩
  | some row =>
    obtain ⟨t, hnext, hadjusted⟩ := execDab_adjusts (by rw [hrow]; rfl)
    exact ⟨t, hnext, fun _ => hadjusted⟩

/-! ### The rows that binary sums and differences of decimal digits meet -/

/-- An addition meets a row when a half carry leaves a low digit, and a carry a high one, that a sum of decimal digits can leave. -/
theorem dabRow_of_sum {c h : Bool} {v : Byte} (hlow : h = true → v.toNat % 16 ≤ 3) (hhigh : c = true → v.toNat / 16 ≤ 2 + h.toNat) :
    (dabRow false c h v).isSome = true := by
  have hv := v.isLt
  rw [dabRow, List.find?_isSome]
  cases c <;> cases h <;> simp [dabTable, DabRow.fits_iff] at hlow hhigh ⊢ <;> omega

/-- A subtraction meets a row when its borrows leave digits that a difference of decimal digits can leave. -/
theorem dabRow_of_difference {c h : Bool} {v : Byte} (hlow : if h then 6 ≤ v.toNat % 16 else v.toNat % 16 ≤ 9)
    (hhigh : if c then 7 ≤ v.toNat / 16 + h.toNat else v.toNat / 16 + h.toNat ≤ 9) : (dabRow true c h v).isSome = true := by
  have hv := v.isLt
  rw [dabRow, List.find?_isSome]
  cases c <;> cases h <;> simp [dabTable, DabRow.fits_iff] at hlow hhigh ⊢ <;> omega

/-! ### Decimal digits -/

/-- The byte adjusted after an addition, as a number. -/
theorem adjusted_add_toNat (c h : Bool) (v : Byte) : (adjusted false c h v).toNat =
    (v.toNat + (if h = true ∨ 9 < v.toNat % 16 then 6 else 0) + (if c = true ∨ 0x99 < v.toNat then 96 else 0)) % 256 := by
  simp only [adjusted, Bool.false_eq_true, if_false]
  split <;> split <;> simp [Nat.mod_eq_of_lt v.isLt]

/-- The byte adjusted after a subtraction, as a number. -/
theorem adjusted_sub_toNat (c h : Bool) (v : Byte) : ((adjusted true c h v).toNat : Int) =
    (v.toNat - (if h then 6 else 0) - (if c then 96 else 0)) % 256 := by
  have hv := v.isLt
  cases c <;> cases h <;> simp [adjusted, BitVec.toNat_sub] <;> omega

/-- The byte holds the two decimal digits of k. -/
def HoldsDigits (v : Byte) (k : Nat) : Prop := v.toNat / 16 * 10 + v.toNat % 16 = k ∧ v.toNat % 16 ≤ 9

section
variable {x1 x0 y1 y0 : Nat} {cin c h : Bool} {v : Byte}

/-- DAB after a binary addition of decimal digits leaves the digits of the sum (R244, R252): a low sum beyond 9, with or without a half
carry, is a decimal carry into the high digit, and likewise for the high digit. -/
theorem adjusted_sum (hx1 : x1 ≤ 9) (hx0 : x0 ≤ 9) (hy1 : y1 ≤ 9) (hy0 : y0 ≤ 9)
    (hv : v.toNat = (16 * x1 + x0 + (16 * y1 + y0) + cin.toNat) % 256)
    (hc : c = true ↔ 256 ≤ 16 * x1 + x0 + (16 * y1 + y0) + cin.toNat) (hh : h = true ↔ 16 ≤ x0 + y0 + cin.toNat) :
    (dabRow false c h v).isSome = true ∧
    HoldsDigits (adjusted false c h v) ((10 * x1 + x0 + (10 * y1 + y0) + cin.toNat) % 100) ∧
    (c = true ∨ 0x99 < v.toNat ↔ 100 ≤ 10 * x1 + x0 + (10 * y1 + y0) + cin.toNat) := by
  have hcin := cin.toNat_le
  have hlow : h = true ∨ 9 < v.toNat % 16 ↔ 10 ≤ x0 + y0 + cin.toNat := by
    rw [hh]; omega
  have hhigh : c = true ∨ 0x99 < v.toNat ↔ 100 ≤ 10 * x1 + x0 + (10 * y1 + y0) + cin.toNat := by
    rw [hc]; omega
  have hvalue : (adjusted false c h v).toNat = 16 * ((x1 + y1 + (x0 + y0 + cin.toNat) / 10) % 10) + (x0 + y0 + cin.toNat) % 10 := by
    rw [adjusted_add_toNat]
    simp only [hlow, hhigh]
    rw [hv]
    split <;> split <;> omega
  refine ⟨dabRow_of_sum ?_ ?_, ?_, hhigh⟩
  · rw [hh]; omega
  · cases h <;> simp at hh ⊢ <;> rw [hc] <;> omega
  · rw [HoldsDigits, hvalue]
    omega

/-- DAB after a binary subtraction of decimal digits leaves the digits of the difference (R252, R264): the half borrow and the borrow are
those of the decimal digits. -/
theorem adjusted_difference (hx1 : x1 ≤ 9) (hx0 : x0 ≤ 9) (hy1 : y1 ≤ 9) (hy0 : y0 ≤ 9)
    (hv : (v.toNat : Int) = ((16 * x1 + x0 : Nat) - (16 * y1 + y0 : Nat) - cin.toNat : Int) % 256)
    (hc : c = true ↔ 16 * x1 + x0 < 16 * y1 + y0 + cin.toNat) (hh : h = true ↔ x0 < y0 + cin.toNat) :
    (dabRow true c h v).isSome = true ∧
    HoldsDigits (adjusted true c h v) ((100 + (10 * x1 + x0) - (10 * y1 + y0) - cin.toNat) % 100) ∧
    (c = true ↔ 10 * x1 + x0 < 10 * y1 + y0 + cin.toNat) := by
  have hcin := cin.toNat_le
  have hvalue : (adjusted true c h v).toNat = 16 * ((x1 + 10 - y1 - h.toNat) % 10) + (x0 + 10 - y0 - cin.toNat) % 10 := by
    have hnumber := adjusted_sub_toNat c h v
    cases c <;> cases h <;> simp at hc hh hnumber ⊢ <;> omega
  refine ⟨dabRow_of_difference ?_ ?_, ?_, ?_⟩
  · cases h <;> simp at hh ⊢ <;> omega
  · cases c <;> cases h <;> simp at hc hh ⊢ <;> omega
  · rw [HoldsDigits, hvalue]
    cases h <;> simp at hh ⊢ <;> omega
  · rw [hc]; omega

end

/-! ### O41 -/

section
variable {s : State} {d r : RegCode} {x1 x0 y1 y0 : Nat}

theorem toNat_two_digits (h1 : x1 ≤ 9) (h0 : x0 ≤ 9) : (BitVec.ofNat 8 (16 * x1 + x0)).toNat = 16 * x1 + x0 := by
  rw [BitVec.toNat_ofNat]
  omega

/-- ADCB leaves the binary sum of the digits and their carries to DAB (R244, R252). -/
theorem adcb_then_dab (hx1 : x1 ≤ 9) (hx0 : x0 ≤ 9) (hy1 : y1 ≤ 9) (hy0 : y0 ≤ 9)
    (hx : (s.rb d).toNat = 16 * x1 + x0) (hy : (s.rb r).toNat = 16 * y1 + y0) :
    ∃ t u, execAdcb d r s = .next t ∧ execDab d t = .next u ∧
      HoldsDigits (u.rb d) ((10 * x1 + x0 + (10 * y1 + y0) + s.fcw.c.toNat) % 100) ∧
      (u.fcw.c = true ↔ 100 ≤ 10 * x1 + x0 + (10 * y1 + y0) + s.fcw.c.toNat) := by
  obtain ⟨t, hadcb, hreg, hfcw⟩ :=
    aluReg_byte (s := s) (d := d) (src := .reg r) (fun a b => addN a b s.fcw.c) Fcw.arithAddByte_update rfl
  have hda : t.fcw.da = false := by rw [hfcw]; rfl
  have hc : t.fcw.c = true ↔ 256 ≤ 16 * x1 + x0 + (16 * y1 + y0) + s.fcw.c.toNat := by
    rw [hfcw, ← hx, ← hy]
    exact addN_c (s.rb d) (s.rb r) s.fcw.c
  have hh : t.fcw.h = true ↔ 16 ≤ x0 + y0 + s.fcw.c.toNat := by
    rw [hfcw]
    refine (addN_h (s.rb d) (s.rb r) s.fcw.c).trans ?_
    rw [hx, hy]
    omega
  have hv : (t.rb d).toNat = (16 * x1 + x0 + (16 * y1 + y0) + s.fcw.c.toNat) % 256 := by
    rw [hreg, ← hx, ← hy]
    exact BitVec.toNat_ofNat ..
  obtain ⟨hrow, hdigits, hcarry⟩ := adjusted_sum hx1 hx0 hy1 hy0 hv hc hh
  obtain ⟨u, hdab, hadjusted, hcAfter, _, _⟩ := execDab_adjusts (s := t) (d := d) (by rw [hda]; exact hrow)
  rw [hda] at hadjusted hcAfter
  exact ⟨t, u, hadcb, hdab, hadjusted ▸ hdigits, by rw [hcAfter, ← hcarry]; simp⟩

/-- SBCB leaves the binary difference of the digits and their borrows to DAB (R252, R264). -/
theorem sbcb_then_dab (hx1 : x1 ≤ 9) (hx0 : x0 ≤ 9) (hy1 : y1 ≤ 9) (hy0 : y0 ≤ 9)
    (hx : (s.rb d).toNat = 16 * x1 + x0) (hy : (s.rb r).toNat = 16 * y1 + y0) :
    ∃ t u, execSbcb d r s = .next t ∧ execDab d t = .next u ∧
      HoldsDigits (u.rb d) ((100 + (10 * x1 + x0) - (10 * y1 + y0) - s.fcw.c.toNat) % 100) ∧
      (u.fcw.c = true ↔ 10 * x1 + x0 < 10 * y1 + y0 + s.fcw.c.toNat) := by
  obtain ⟨t, hsbcb, hreg, hfcw⟩ :=
    aluReg_byte (s := s) (d := d) (src := .reg r) (fun a b => subN a b s.fcw.c) Fcw.arithSubByte_update rfl
  have hda : t.fcw.da = true := by rw [hfcw]; rfl
  have hc : t.fcw.c = true ↔ 16 * x1 + x0 < 16 * y1 + y0 + s.fcw.c.toNat := by
    rw [hfcw, ← hx, ← hy]
    exact subN_borrow (s.rb d) (s.rb r) s.fcw.c
  have hh : t.fcw.h = true ↔ x0 < y0 + s.fcw.c.toNat := by
    rw [hfcw]
    refine (subN_h (s.rb d) (s.rb r) s.fcw.c).trans ?_
    rw [hx, hy]
    omega
  have hv : ((t.rb d).toNat : Int) = ((16 * x1 + x0 : Nat) - (16 * y1 + y0 : Nat) - s.fcw.c.toNat : Int) % 256 := by
    rw [hreg, ← hx, ← hy]
    exact subN_toNat (s.rb d) (s.rb r) s.fcw.c
  obtain ⟨hrow, hdigits, hcarry⟩ := adjusted_difference hx1 hx0 hy1 hy0 hv hc hh
  obtain ⟨u, hdab, hadjusted, hcAfter, _, _⟩ := execDab_adjusts (s := t) (d := d) (by rw [hda]; exact hrow)
  rw [hda] at hadjusted hcAfter
  exact ⟨t, u, hsbcb, hdab, hadjusted ▸ hdigits, by rw [hcAfter, ← hcarry]; simp⟩

end

/-- Settles O41: the digits that DAB leaves are those of the decimal sum or difference modulo 100. -/
theorem decimalAdditionAndSubtraction : Obligations.DecimalAdditionAndSubtraction := by
  intro s d r x1 x0 y1 y0 hx1 hx0 hy1 hy0 hx hy
  have hxNat : (s.rb d).toNat = 16 * x1 + x0 := hx ▸ toNat_two_digits hx1 hx0
  have hyNat : (s.rb r).toNat = 16 * y1 + y0 := hy ▸ toNat_two_digits hy1 hy0
  constructor
  · obtain ⟨t, u, hadcb, hdab, ⟨hvalue, hlow⟩, hcarry⟩ := adcb_then_dab hx1 hx0 hy1 hy0 hxNat hyNat
    exact ⟨t, u, hadcb, hdab, hvalue, hlow, hcarry⟩
  · obtain ⟨t, u, hsbcb, hdab, ⟨hvalue, hlow⟩, hcarry⟩ := sbcb_then_dab hx1 hx0 hy1 hy0 hxNat hyNat
    exact ⟨t, u, hsbcb, hdab, hvalue, hlow, hcarry⟩

end Sys2Proof.Machine
end

section
/-! SUPPORT. The logical instructions and TCC (spec/43_logical.md R280 to R286). -/

namespace Sys2Proof.Machine

/-! ### Flags -/

/-- The xor of the bits of a byte is whether their number is odd (R243). -/
theorem parity8_iff (v : Byte) : parity8 v = true ↔ onesOf v % 2 = 0 := by
  revert v
  decide

/-- Z, S and P/V of a logical result (R280). -/
theorem logic_isLogical {n : Nat} (r : BitVec n) (f : Fcw) : IsLogical r f (f.logic r) where
  zero := beq_iff_eq
  sign := rfl
  parity := by
    unfold Fcw.logic
    split
    · exact parity8_iff _
    · rfl

/-! ### The shared operations -/

/-- The logical flags change neither the registers nor the addresses that codes name. -/
theorem Fcw.logic_update {n : Nat} (f : Fcw) (r : BitVec n) : FlagUpdate [.z, .s, .pv] f (f.logic r) :=
  ⟨by simp [fcwKept_iff, Fcw.logic], rfl⟩

section
variable {n : Nat} {w : Width n} {s : State}

/-- A logical operation on a register and a source that can be read leaves its result and the flags of it. -/
theorem logicReg_next (W : WidthOperand w) (op : BitVec n → BitVec n → BitVec n) {d : RegCode} {src : Src n} {a b : BitVec n}
    (hget : w.get s d = .ok a) (hread : readSrc w s src = .ok b) :
    ∃ t, finish (logicReg w op d src s) = .next t ∧ w.get t d = .ok (op a b) ∧ IsLogical (op a b) s.fcw t.fcw := by
  obtain ⟨u, hset, hback⟩ := set_then_flags W (op a b) (s.fcw.logic_update (op a b)) (by simp) hget
  exact ⟨_, by simp only [logicReg, hget, hread, hset, bind_of_ok, finish_ok], hback, logic_isLogical _ _⟩

/-- COM of an operand that can be read leaves its complement there (R282). -/
theorem complement_next (W : WidthOperand w) {dst : RegMem} {v : BitVec n} (hwf : s.mem.wf = true) (hread : readRegMem w s dst = .ok v) :
    ∃ t, finish (complement w dst s) = .next t ∧ readRegMem w t dst = .ok (~~~v) ∧ IsLogical (~~~v) s.fcw t.fcw := by
  obtain ⟨u, hwrite, hback⟩ := write_then_flags W (~~~v) (s.fcw.logic_update (~~~v)) (by simp) hwf hread
  exact ⟨_, by simp only [complement, hread, hwrite, bind_of_ok, finish_ok], hback, logic_isLogical _ _⟩

/-- TEST of an operand that can be read sets flags only (R285). -/
theorem testOp_next {dst : RegMem} {v : BitVec n} (hread : readRegMem w s dst = .ok v) :
    ∃ t, finish (testOp w dst s) = .next t ∧ IsLogical v s.fcw t.fcw ∧ t.gr = s.gr ∧ t.mem = s.mem :=
  ⟨s.setFcw (s.fcw.logic v), by simp only [testOp, hread, bind_of_ok, finish_ok], logic_isLogical _ _, rfl, rfl⟩

/-- TCC sets bit 0 of a register that can be read, when the condition holds (R284). -/
theorem testCond_eq {cc : CondCode} {d : RegCode} {v : BitVec n} (hget : w.get s d = .ok v) :
    testCond w cc d s = if s.fcw.cond cc then w.set s d (v ||| 1#n) else .ok s := by
  simp only [testCond, hget, bind_of_ok, BitVec.twoPow_zero]

end

section
variable {s : State} {d : RegCode}

theorem logicReg_word {src : Src 16} {b : Word} (op : Word → Word → Word) (hread : readSrc wordWidth s src = .ok b) :
    ∃ t, finish (logicReg wordWidth op d src s) = .next t ∧ t.reg d = op (s.reg d) b ∧ IsLogical (t.reg d) s.fcw t.fcw := by
  obtain ⟨t, hnext, hget, hflags⟩ := logicReg_next wordOperand op (d := d) rfl hread
  have hreg : t.reg d = op (s.reg d) b := Except.ok.inj hget
  exact ⟨t, hnext, hreg, hreg ▸ hflags⟩

theorem logicReg_byte {src : Src 8} {b : Byte} (op : Byte → Byte → Byte) (hread : readSrc byteWidth s src = .ok b) :
    ∃ t, finish (logicReg byteWidth op d src s) = .next t ∧ t.rb d = op (s.rb d) b ∧ IsLogical (t.rb d) s.fcw t.fcw := by
  obtain ⟨t, hnext, hget, hflags⟩ := logicReg_next byteOperand op (d := d) rfl hread
  have hreg : t.rb d = op (s.rb d) b := Except.ok.inj hget
  exact ⟨t, hnext, hreg, hreg ▸ hflags⟩

theorem tcc_word (cc : CondCode) : ∃ t, finish (testCond wordWidth cc d s) = .next t ∧
    t.reg d = if s.fcw.cond cc then s.reg d ||| 1 else s.reg d := by
  rw [testCond_eq (v := s.reg d) rfl]
  split
  · exact ⟨_, rfl, s.reg_setReg_same d _⟩
  · exact ⟨s, rfl, rfl⟩

theorem tcc_byte (cc : CondCode) : ∃ t, finish (testCond byteWidth cc d s) = .next t ∧
    t.rb d = if s.fcw.cond cc then s.rb d ||| 1 else s.rb d := by
  rw [testCond_eq (v := s.rb d) rfl]
  split
  · exact ⟨_, rfl, s.rb_setRb_same d _⟩
  · exact ⟨s, rfl, rfl⟩

end

/-! ### O42 -/

/-- Settles O42: each instruction is the shared operation of its width. -/
theorem logicalOperations : Obligations.LogicalOperations := by
  refine ⟨fun s d src b hread => ⟨?and, ?or, ?xor⟩, fun s d src b hread => ⟨?andb, ?orb, ?xorb⟩,
    fun s dst v hwf hread => ⟨complement_next wordOperand hwf hread, testOp_next hread⟩,
    fun s dst v hwf hread => ⟨complement_next byteOperand hwf hread, testOp_next hread⟩,
    fun s dst v hread => testOp_next hread, fun s cc d => tcc_word cc, fun s cc d => tcc_byte cc⟩
  case and => exact logicReg_word (fun x y => x &&& y) hread
  case or => exact logicReg_word (fun x y => x ||| y) hread
  case xor => exact logicReg_word (fun x y => x ^^^ y) hread
  case andb => exact logicReg_byte (fun x y => x &&& y) hread
  case orb => exact logicReg_byte (fun x y => x ||| y) hread
  case xorb => exact logicReg_byte (fun x y => x ^^^ y) hread

end Sys2Proof.Machine
end

section
/-! SUPPORT. SC and IRET (spec/44_program_control.md R305, R309): IRET pops what trap entry has pushed. -/

namespace Sys2Proof.Machine

/-! ### The frame that IRET pops -/

/-- The address at which IRET finds the frame (R305). -/
def State.iretStack (s : State) : Address := if s.segmented then ⟨segOf s.rs14, s.rs15⟩ else ⟨s.pcSeg, s.rs15⟩

/-- The PC that IRET takes from the frame (R305). -/
def State.iretPc (s : State) : Address :=
  if s.segmented then ⟨segOf (s.wordAt (s.iretStack.plus 4)), s.wordAt (s.iretStack.plus 6)⟩
  else ⟨s.pcSeg, s.wordAt (s.iretStack.plus 4)⟩

/-- The bytes of the frame that IRET pops (R305). -/
def State.iretSize (s : State) : Word := if s.segmented then 8 else 6

/-- The state after the frame is popped (R305). -/
def State.afterIret (s : State) : State :=
  { s.setRs15 (s.rs15 + s.iretSize) with
    fcw := s.fcw.ofWord s.cfg.variant (s.wordAt (s.iretStack.plus 2)), pcSeg := s.iretPc.seg, pcOff := s.iretPc.off }

theorem State.iretSize_even (s : State) : s.iretSize.getLsbD 0 = false := by
  unfold State.iretSize
  split <;> rfl

section
variable {s : State}

theorem iret_segmented (h : s.segmented = true) : s.iretStack = ⟨segOf s.rs14, s.rs15⟩ ∧
    s.iretPc = ⟨segOf (s.wordAt (s.iretStack.plus 4)), s.wordAt (s.iretStack.plus 6)⟩ ∧ s.iretSize = 8 :=
  ⟨if_pos h, if_pos h, if_pos h⟩

theorem iret_nonsegmented (h : s.segmented = false) : s.iretStack = ⟨s.pcSeg, s.rs15⟩ ∧
    s.iretPc = ⟨s.pcSeg, s.wordAt (s.iretStack.plus 4)⟩ ∧ s.iretSize = 6 :=
  have h' := Bool.eq_false_iff.1 h
  ⟨if_neg h', if_neg h', if_neg h'⟩

/-- The frame is popped when the stack pointer is even, and the FCW and the PC in it can be loaded. -/
theorem returnFromTrap_of_valid (heven : s.rs15.getLsbD 0 = false) (hf : fcwReservedClear (s.wordAt (s.iretStack.plus 2)) = true)
    (hpc : s.iretPc.isEven = true) : s.returnFromTrap = .ok s.afterIret := by
  have read (g : SegNum) (k : Word) (hk : k.getLsbD 0 = false) :
      s.readWord (Address.plus ⟨g, s.rs15⟩ k) = .ok (s.wordAt (Address.plus ⟨g, s.rs15⟩ k)) :=
    s.readWord_of_even _ (Address.plus_even _ k hk heven)
  have hpc := s.iretPc.isEven_iff.1 hpc
  unfold State.returnFromTrap State.afterIret
  split
  · next hs =>
    obtain ⟨hstack, hsaved, hsize⟩ := iret_segmented hs
    rw [hstack] at hsaved hf
    rw [hsaved] at hpc
    rw [hstack, hsaved, hsize]
    exact bind_ok.2 ⟨_, s.readWord_of_even _ heven, bind_ok.2 ⟨_, read _ 2 rfl, bind_ok.2 ⟨_, read _ 4 rfl, bind_ok.2 ⟨_, read _ 6 rfl,
      bind_ok.2 ⟨_, loadFcw_ok.2 ⟨hf, rfl⟩, setPcOff_ok.2 ⟨hpc, rfl⟩⟩⟩⟩⟩⟩
  · next hs =>
    obtain ⟨hstack, hsaved, hsize⟩ := iret_nonsegmented (Bool.eq_false_iff.2 hs)
    rw [hstack] at hsaved hf
    rw [hsaved] at hpc
    rw [hstack, hsaved, hsize]
    exact bind_ok.2 ⟨_, s.readWord_of_even _ heven, bind_ok.2 ⟨_, read _ 2 rfl, bind_ok.2 ⟨_, read _ 4 rfl,
      bind_ok.2 ⟨_, loadFcw_ok.2 ⟨hf, rfl⟩, setPcOff_ok.2 ⟨hpc, rfl⟩⟩⟩⟩⟩

/-- IRET in system mode is the return from a trap (R305, R505). -/
theorem execIret_next (hsn : s.fcw.sn = true) (heven : s.rs15.getLsbD 0 = false)
    (hf : fcwReservedClear (s.wordAt (s.iretStack.plus 2)) = true) (hpc : s.iretPc.isEven = true) :
    exec .iret s = .next s.afterIret :=
  finish_next.2 ((if_pos hsn).trans (returnFromTrap_of_valid heven hf hpc))

/-- What IRET leaves, from the FCW word and the PC that the frame holds (R305, R440). -/
theorem execIret_leaves {w : Word} {pc : Address} (hsn : s.fcw.sn = true) (heven : s.rs15.getLsbD 0 = false)
    (hw : s.wordAt (s.iretStack.plus 2) = w) (hf : fcwReservedClear w = true) (hsaved : s.iretPc = pc) (hpc : pc.isEven = true) :
    ∃ t, exec .iret s = .next t ∧ IsStatus s.cfg.variant s.fcw t.fcw w ∧ t.pcSeg = pc.seg ∧ t.pcOff = pc.off ∧
      t.rs15 = s.rs15 + s.iretSize := by
  subst hw hsaved
  exact ⟨s.afterIret, execIret_next hsn heven hf hpc, ofWord_isStatus _ _ _ hf, rfl, rfl, s.rs15_setRs15 _⟩

end

/-! ### O20 -/

/-- Settles O20: the frame that IRET pops, in the terms of each mode. -/
theorem returnFromInterrupt : Obligations.ReturnFromInterrupt := by
  refine ⟨fun s hsn hs heven hf hpc => ?nonsegmented, fun s hsn hs heven hf hpc => ?segmented⟩
  case nonsegmented =>
    obtain ⟨hstack, hsaved, hsize⟩ := iret_nonsegmented hs
    rw [hstack] at hsaved
    exact hsize ▸ execIret_leaves hsn heven (by rw [hstack]; rfl) hf hsaved ((Address.isEven_iff _).2 hpc)
  case segmented =>
    obtain ⟨hstack, hsaved, hsize⟩ := iret_segmented hs
    rw [hstack] at hsaved
    exact hsize ▸ execIret_leaves hsn heven (by rw [hstack]; rfl) hf hsaved ((Address.isEven_iff _).2 hpc)

/-! ### O17 -/

/-- Settles O17: SC is trap entry in either mode, which leaves the handler's state. -/
theorem systemCallTraps : Obligations.SystemCallTraps := by
  intro s n hready
  obtain ⟨t, hentry, hentered⟩ := trapEntry_entered s.pcOff hready
  exact ⟨t, finish_next.2 hentry, hentered⟩

/-! ### The frame that trap entry leaves -/

/-- The frame is pushed only by an even system stack pointer. -/
theorem even_of_pushFrame {s t : State} {off old ident : Word} (h : s.pushFrame off old ident = .ok t) : s.rs15.getLsbD 0 = false := by
  unfold State.pushFrame at h
  split at h
  · exact (pushFrame8001_ok h).1
  · exact (pushFrame8002_ok h).1

/-- In t the frame of the program s, interrupted at offset `off`, is on the system stack (R515); the other registers are those of s, and so
are the segment of the PC and SEG on the AMZ8002, where no status has them. -/
structure FrameOf (s : State) (off : Word) (t : State) : Prop where
  cfg : t.cfg = s.cfg
  even : s.rs15.getLsbD 0 = false
  regs : ∀ j : Fin 18, j ≠ 17 → t.gr[j] = s.gr[j]
  fcwWord : t.wordAt (t.systemStack.plus 2) = s.fcw.word
  saved8001 : s.cfg.variant = .amz8001 →
    t.rs15 = s.rs15 - 8 ∧ segOf (t.wordAt (t.systemStack.plus 4)) = s.pcSeg ∧ t.wordAt (t.systemStack.plus 6) = off
  saved8002 : s.cfg.variant = .amz8002 →
    t.rs15 = s.rs15 - 6 ∧ t.wordAt (t.systemStack.plus 4) = off ∧ t.pcSeg = s.pcSeg ∧ t.fcw.seg = s.fcw.seg

theorem trapEntry_frameOf {s t : State} {kind : TrapKind} {ident off : Word} (hwf : s.mem.wf = true)
    (h : s.trapEntry kind ident off = .ok t) : FrameOf s off t := by
  rw [State.trapEntry_eq] at h
  obtain ⟨u, hpush, hload⟩ := bind_ok.1 h
  have c := pushFrame_change hpush
  have hcfg : u.cfg = s.cfg := c.cfg
  obtain ⟨-, hold, hsaved⟩ := pushFrame_words (s := s.trapState) hwf hpush
  obtain ⟨-, -, rfl⟩ := loadEntry_ok hload
  have hstack := u.systemStack_newStatus (u.fcw.ofWord u.cfg.variant (u.newFcw kind)) kind ident (u.newPcOff kind ident)
  rw [← hstack] at hold hsaved
  refine {
    cfg := hcfg
    even := even_of_pushFrame (s := s.trapState) hpush
    regs := fun j hj => c.gr j (by simpa using hj)
    fcwWord := hold
    saved8001 := fun hv => ?_
    saved8002 := fun hv => ?_ }
  · have hv' : s.trapState.cfg.variant = .amz8001 := hv
    simp only [hv'] at hsaved
    exact hsaved
  · have hv' : s.trapState.cfg.variant = .amz8002 := hv
    simp only [hv'] at hsaved
    obtain ⟨hsp, hoff⟩ := hsaved
    refine ⟨hsp, hoff, ?_, ?_⟩
    · exact ((u.newPcSeg_8002 kind ident).resolve_left (by simp [hcfg, hv])).trans c.pcSeg
    · simp [Fcw.ofWord, hcfg, hv, c.fcw, State.trapState]

/-- IRET in a handler that is segmented on the AMZ8001 finds the saved PC and FCW in the frame, and takes the whole frame off (R305). -/
theorem FrameOf.iret {s t : State} {off : Word} (f : FrameOf s off t) (hseg : s.cfg.variant = .amz8001 → t.fcw.seg = true) :
    t.wordAt (t.iretStack.plus 2) = s.fcw.word ∧ t.iretPc = ⟨s.pcSeg, off⟩ ∧ t.rs15 + t.iretSize = s.rs15 := by
  cases hv : s.cfg.variant
  case amz8001 =>
    have hvt : t.cfg.variant = .amz8001 := f.cfg ▸ hv
    obtain ⟨hstack, hpc, hsize⟩ := iret_segmented (t.segmented_iff.2 ⟨hvt, hseg hv⟩)
    obtain ⟨hsp, hsaved, hoff⟩ := f.saved8001 hv
    rw [← State.systemStack_8001 hvt] at hstack
    rw [hpc, hstack, hsize, hsaved, hoff, hsp]
    exact ⟨f.fcwWord, rfl, BitVec.sub_add_cancel ..⟩
  case amz8002 =>
    have hvt : t.cfg.variant = .amz8002 := f.cfg ▸ hv
    obtain ⟨hstack, hpc, hsize⟩ := iret_nonsegmented (s := t) (by simp [State.segmented, hvt])
    obtain ⟨hsp, hoff, hkept, -⟩ := f.saved8002 hv
    rw [← State.systemStack_8002 hvt] at hstack
    rw [hpc, hstack, hsize, hkept, hoff, hsp]
    exact ⟨f.fcwWord, rfl, BitVec.sub_add_cancel ..⟩

/-- The FCW that IRET loads is that of the interrupted program: on the AMZ8002 SEG never changed (R440). -/
theorem FrameOf.fcw {s t : State} {off : Word} (f : FrameOf s off t) : t.fcw.ofWord t.cfg.variant s.fcw.word = s.fcw := by
  rw [ofWord_word, f.cfg]
  cases hv : s.cfg.variant
  case amz8001 => rfl
  case amz8002 =>
    obtain ⟨-, -, -, hkept⟩ := f.saved8002 hv
    exact congrArg (fun b => { s.fcw with seg := b }) hkept

/-- The registers of two states that differ in one at most agree when it is set. -/
theorem set_eq_of_others_eq {v w : Vector Word 18} {i : Fin 18} {x : Word} (h : ∀ j, j ≠ i → v[j] = w[j]) (hx : x = w[i]) :
    v.set i x = w := by
  refine Vector.ext fun k hk => ?_
  refine (getElem_set_fin v i ⟨k, hk⟩ x).trans ?_
  split
  · next hki => rw [hx, ← hki]; rfl
  · next hki => exact h _ hki

/-! ### O19 -/

/-- Settles O19: IRET pops the frame that trap entry has pushed, and its stores left the registers alone but for the stack pointer. -/
theorem returnUndoesTrapEntry : Obligations.ReturnUndoesTrapEntry := by
  intro s t kind ident off hwf hoff h hsn hseg
  have f := trapEntry_frameOf hwf h
  obtain ⟨hw, hpc, hsp⟩ := f.iret hseg
  have heven : t.rs15.getLsbD 0 = false := (getLsbD_add_even t.rs15 _ t.iretSize_even).symm.trans (hsp ▸ f.even)
  have hnext := execIret_next hsn heven (hw ▸ fcwReservedClear_word s.fcw) (hpc ▸ (Address.isEven_iff _).2 hoff)
  exact ⟨t.afterIret, hnext, (congrArg _ hw).trans f.fcw, congrArg Address.seg hpc, congrArg Address.off hpc,
    set_eq_of_others_eq f.regs hsp⟩

end Sys2Proof.Machine
end

section
/-! SUPPORT. Jumps, calls and returns (spec/44_program_control.md R301 to R308). -/

namespace Sys2Proof.Machine

/-! ### Jumps -/

/-- Displacements count words: signed ones (R303, R307) and unsigned ones (R304). -/
theorem double_signExtend {n : Nat} (d : BitVec n) : 2 * d.signExtend 16 = BitVec.ofInt 16 (2 * d.toInt) := by
  rw [BitVec.ofInt_mul]
  rfl

theorem double_setWidth (d : BitVec 7) : 2 * d.setWidth 16 = BitVec.ofNat 16 (2 * d.toNat) := by
  bv_omega

/-- A jump to an even address (R306). -/
theorem jumpTo_of_even {s : State} {a : Address} (heven : a.isEven = true) :
    s.jumpTo a = .ok { s with pcSeg := if s.segmented then a.seg else s.pcSeg, pcOff := a.off } :=
  jumpTo_ok.2 ⟨a.isEven_iff.1 heven, rfl⟩

theorem jumpTo_of_odd {s : State} {a : Address} (hodd : a.isEven = false) : s.jumpTo a = .error .oddPc :=
  if_pos ((Bool.not_eq_false' _).mp hodd)

theorem execJp_eq {s : State} {cc : CondCode} {dst : MemOp} {a : Address} (hea : s.ea dst = .ok a) :
    exec (.jp cc dst) s = finish (if s.fcw.cond cc then s.jumpTo a else .ok s) :=
  congrArg finish ((congrArg (· >>= _) hea).trans (bind_of_ok a _))

/-- A register that can be read and written is decremented, and the PC goes back unless the result is 0 (R304). -/
theorem decrementJump_ok {n : Nat} {w : Width n} {s t : State} {r : RegCode} {v : BitVec n} (disp : BitVec 7) (hget : w.get s r = .ok v)
    (hset : w.set s r (v - 1) = .ok t) (hpc : t.pcOff = s.pcOff) :
    decrementJump w r disp s =
      .ok (t.movePc (if v = 1 then s.pcOff else s.pcOff - BitVec.ofNat 16 (2 * disp.toNat))) := by
  have hzero : v - 1 = 0 ↔ v = 1 := sub_eq_zero
  simp only [decrementJump, hget, hset, bind_of_ok, hzero, hpc, double_setWidth]
  split
  · rw [← hpc]
    rfl
  · rfl

/-! ### O45 -/

/-- Settles O45: an even target of JP is the new PC, and a register that is decremented reads back before the PC moves. -/
theorem jumpsTransferControl : Obligations.JumpsTransferControl := by
  refine ⟨fun s cc dst a hea => ?jp, fun s cc disp => ?jr, fun s r disp => ?djnz, fun s r disp => ?dbjnz⟩
  case jp =>
    rw [execJp_eq hea]
    refine ⟨fun hcc => ?_, fun hcc heven => ?_, fun hcc hodd => ?_⟩
    · simp [hcc]
    · rw [if_pos hcc, jumpTo_of_even heven]
      exact ⟨_, rfl, rfl, rfl⟩
    · simp [hcc, jumpTo_of_odd hodd]
  case jr =>
    refine ⟨_, rfl, ?_⟩
    rw [← double_signExtend]
    split <;> exact ⟨rfl, rfl⟩
  case djnz =>
    have hdone := decrementJump_ok (w := wordWidth) (s := s) (r := r) disp rfl rfl rfl
    exact ⟨_, finish_next.2 hdone, s.reg_setReg_same r _, rfl⟩
  case dbjnz =>
    have hdone := decrementJump_ok (w := byteWidth) (s := s) (r := r) disp rfl rfl rfl
    exact ⟨_, finish_next.2 hdone, s.rb_setRb_same r _, rfl⟩

/-! ### The implied stack -/

/-- The address in the implied stack pointer (R301). -/
def State.impliedStack (s : State) : Address := ⟨if s.segmented then segOf (s.reg 14) else s.pcSeg, s.reg 15⟩

/-- The bytes that a PC takes on the stack (R301). -/
def State.pcSize (s : State) : Word := if s.segmented then 4 else 2

/-- The PC on top of the implied stack (R301). -/
def State.savedPc (s : State) : Address :=
  if s.segmented then ⟨segOf (s.wordAt s.impliedStack), s.wordAt (s.impliedStack.plus 2)⟩ else ⟨s.pcSeg, s.wordAt s.impliedStack⟩

theorem State.neg_pcSize_even (s : State) : (-s.pcSize).getLsbD 0 = false := by
  unfold State.pcSize
  split <;> rfl

section
variable {s t : State}

theorem implied_segmented (h : s.segmented = true) :
    s.spCode = 14 ∧ s.impliedStack = ⟨segOf (s.reg 14), s.reg 15⟩ ∧ s.pcSize = 4 :=
  ⟨if_pos h, congrArg (Address.mk · _) (if_pos h), if_pos h⟩

theorem implied_nonsegmented (h : s.segmented = false) :
    s.spCode = 15 ∧ s.impliedStack = ⟨s.pcSeg, s.reg 15⟩ ∧ s.pcSize = 2 :=
  have h' := Bool.eq_false_iff.1 h
  ⟨if_neg h', congrArg (Address.mk · _) (if_neg h'), if_neg h'⟩

/-- The PC on a stack of which the address is known. -/
theorem savedPc_segmented {a : Address} (h : s.segmented = true) (hstack : s.impliedStack = a) :
    s.savedPc = ⟨segOf (s.wordAt a), s.wordAt (a.plus 2)⟩ := by
  subst hstack
  exact if_pos h

theorem savedPc_nonsegmented {a : Address} (h : s.segmented = false) (hstack : s.impliedStack = a) :
    s.savedPc = ⟨s.pcSeg, s.wordAt a⟩ := by
  subst hstack
  exact if_neg (Bool.eq_false_iff.1 h)

/-- RR14 or R15 is an address register in its mode, and its offset is R15 (R301). -/
theorem State.addrReg_spCode (s : State) : s.addrReg s.spCode = .ok s.impliedStack ∧ s.offReg s.spCode = 15 := by
  cases hs : s.segmented
  case false =>
    obtain ⟨hcode, hstack, -⟩ := implied_nonsegmented hs
    rw [hcode, hstack]
    exact ⟨addrReg_nonsegmented hs, (offReg_nonsegmented hs).1⟩
  case true =>
    obtain ⟨hcode, hstack, -⟩ := implied_segmented hs
    rw [hcode, hstack]
    exact ⟨addrReg_pair hs rfl, (offReg_segmented hs).1⟩

theorem impliedStack_eq {sp : Address} (h : s.addrReg s.spCode = .ok sp) : s.impliedStack = sp :=
  Except.ok.inj (s.addrReg_spCode.1.symm.trans h)

theorem State.impliedStack_setReg (s : State) (x : Word) : (s.setReg 15 x).impliedStack = ⟨s.impliedStack.seg, x⟩ := by
  have h14 : (s.setReg 15 x).reg 14 = s.reg 14 := s.reg_setReg_ne x (by decide)
  simp only [State.impliedStack, h14, State.reg_setReg_same]
  rfl

end

/-! ### The PC on the stack -/

/-- The PC of s is on top of the implied stack of t; of the registers the stack pointer alone has moved, and the FCW is the same. -/
structure PcPushed (s t : State) : Prop where
  cfg : t.cfg = s.cfg
  fcw : t.fcw = s.fcw
  gr : t.gr = s.gr.set (s.phys 15) (s.reg 15 + -s.pcSize)
  stack : t.impliedStack = s.impliedStack.plus (-s.pcSize)
  savedPc : t.savedPc = s.pc

section
variable {s t : State}

theorem pushWord_of_even {r : RegCode} {a : Address} (v : Word) (ha : s.addrReg r = .ok a) (heven : a.isEven = true) :
    s.pushWord r v = .ok ((s.setReg (s.offReg r) (a.plus (-2)).off).putWord (a.plus (-2)) v) :=
  bind_ok.2 ⟨a, ha, State.writeWord_of_even _ _ v (a.plus_even (-2) (by decide) (a.isEven_iff.1 heven))⟩

theorem pushLong_of_even {r : RegCode} {a : Address} (v : Long) (ha : s.addrReg r = .ok a) (heven : a.isEven = true) :
    s.pushLong r v = .ok ((s.setReg (s.offReg r) (a.plus (-4)).off).putLong (a.plus (-4)) v) :=
  bind_ok.2 ⟨a, ha, State.writeLong_of_even _ _ v (a.plus_even (-4) (by decide) (a.isEven_iff.1 heven))⟩

/-- The offset of the PC, pushed as a word. -/
theorem pcPushed_word (hs : s.segmented = false) (hwf : s.mem.wf = true) :
    PcPushed s ((s.setReg 15 (s.impliedStack.plus (-2)).off).putWord (s.impliedStack.plus (-2)) s.pcOff) := by
  obtain ⟨-, -, hsize⟩ := implied_nonsegmented hs
  have hstack := s.impliedStack_setReg (s.impliedStack.plus (-2)).off
  refine ⟨rfl, rfl, by rw [hsize]; rfl, by rw [hsize]; exact hstack, ?_⟩
  refine (savedPc_nonsegmented (s := (s.setReg 15 _).putWord _ _) hs hstack).trans ?_
  exact congrArg (Address.mk s.pcSeg) (State.wordAt_putWord_same _ _ _ hwf)

/-- A segment word and the offset of the PC, pushed as a long word. -/
theorem pcPushed_long {w : Word} (hs : s.segmented = true) (hwf : s.mem.wf = true) (hw : segOf w = s.pcSeg) :
    PcPushed s ((s.setReg 15 (s.impliedStack.plus (-4)).off).putLong (s.impliedStack.plus (-4)) (w ++ s.pcOff)) := by
  obtain ⟨-, -, hsize⟩ := implied_segmented hs
  have hstack := s.impliedStack_setReg (s.impliedStack.plus (-4)).off
  refine ⟨rfl, rfl, by rw [hsize]; rfl, by rw [hsize]; exact hstack, ?_⟩
  refine (savedPc_segmented (s := (s.setReg 15 _).putLong _ _) hs hstack).trans ?_
  obtain ⟨hhi, hlo⟩ := State.words_putLong (s.setReg 15 (s.impliedStack.plus (-4)).off) (s.impliedStack.plus (-4)) (w ++ s.pcOff) hwf
  exact congrArg₂ Address.mk ((congrArg segOf (hhi.trans (hiWord_append ..))).trans hw) (hlo.trans (loWord_append ..))

/-- PushPC by an even stack pointer completes (R301). -/
theorem pushPc_pushed (hwf : s.mem.wf = true) (heven : s.impliedStack.isEven = true) :
    ∃ t, s.pushPc = .ok t ∧ PcPushed s t ∧ t.pcOff = s.pcOff ∧ t.pcSeg = s.pcSeg := by
  unfold State.pushPc
  split
  · next hs =>
    obtain ⟨haddr, hoff⟩ := s.drawn.drawn.addrReg_spCode
    obtain ⟨hcode, -, -⟩ := implied_segmented (s := s.drawn.drawn) hs
    have hpush := pushLong_of_even (s.segWord s.pcSeg ++ s.pcOff) haddr heven
    rw [hoff, hcode] at hpush
    have p : PcPushed s.drawn.drawn _ := pcPushed_long (w := s.segWord s.pcSeg) hs hwf (segOf_segWord _ _ _)
    exact ⟨_, hpush, ⟨p.cfg, p.fcw, p.gr, p.stack, p.savedPc⟩, rfl, rfl⟩
  · next hs =>
    have hs := Bool.eq_false_iff.2 hs
    obtain ⟨haddr, hoff⟩ := s.addrReg_spCode
    obtain ⟨hcode, -, -⟩ := implied_nonsegmented hs
    have hpush := pushWord_of_even s.pcOff haddr heven
    rw [hoff, hcode] at hpush
    exact ⟨_, hpush, pcPushed_word hs hwf, rfl, rfl⟩

/-- A jump leaves the PC on the stack, of which the segment is that of the PC only where no jump changes it (R302, R306). -/
theorem PcPushed.jump (p : PcPushed s t) {g : SegNum} (x : Word) (hg : t.segmented = true ∨ g = t.pcSeg) :
    PcPushed s { t with pcSeg := g, pcOff := x } := by
  rcases hg with hs | rfl
  · obtain ⟨-, hbefore, -⟩ := implied_segmented hs
    obtain ⟨-, hafter, -⟩ := implied_segmented (s := { t with pcSeg := g, pcOff := x }) hs
    have hstack := hafter.trans hbefore.symm
    have hsaved := (savedPc_segmented (s := { t with pcSeg := g, pcOff := x }) hs hstack).trans (savedPc_segmented hs rfl).symm
    exact ⟨p.cfg, p.fcw, p.gr, hstack.trans p.stack, hsaved.trans p.savedPc⟩
  · exact ⟨p.cfg, p.fcw, p.gr, p.stack, p.savedPc⟩

theorem PcPushed.segmented (p : PcPushed s t) : t.segmented = s.segmented := by
  rw [State.segmented, State.segmented, p.cfg, p.fcw]

theorem PcPushed.pcSize (p : PcPushed s t) : t.pcSize = s.pcSize := by
  rw [State.pcSize, State.pcSize, p.segmented]

theorem PcPushed.reg15 (p : PcPushed s t) : t.reg 15 = s.reg 15 - s.pcSize := by
  have h := congrArg Address.off p.stack
  exact h.trans (BitVec.sub_eq_add_neg ..).symm

theorem PcPushed.phys (p : PcPushed s t) : t.phys 15 = s.phys 15 := State.phys_congr p.cfg (congrArg Fcw.sn p.fcw) 15

/-- The stack pointer moved back by the size of the PC is the one before the push. -/
theorem PcPushed.gr_restored (p : PcPushed s t) : (t.setReg 15 (t.reg 15 + t.pcSize)).gr = s.gr := by
  have hbefore : s.gr[t.phys 15] = s.reg 15 := congrArg (fun j => s.gr[j]) p.phys
  have hx : t.reg 15 + t.pcSize = s.gr[t.phys 15] := by rw [p.reg15, p.pcSize, BitVec.sub_add_cancel, hbefore]
  refine set_eq_of_others_eq (fun j hj => ?_) hx
  rw [p.gr]
  exact s.setReg_gr_ne 15 _ j (p.phys ▸ hj)

/-- The segment word is below the offset (R301). -/
theorem PcPushed.words (p : PcPushed s t) : t.wordAt (s.impliedStack.plus (-2)) = s.pcOff ∧
    (s.segmented = true → segOf (t.wordAt (s.impliedStack.plus (-4))) = s.pcSeg) := by
  have hstack := p.stack
  have hsaved := p.savedPc
  cases hs : s.segmented
  case false =>
    obtain ⟨-, -, hsize⟩ := implied_nonsegmented hs
    rw [hsize] at hstack
    rw [savedPc_nonsegmented (p.segmented.trans hs) hstack] at hsaved
    exact ⟨congrArg Address.off hsaved, Bool.noConfusion⟩
  case true =>
    obtain ⟨-, -, hsize⟩ := implied_segmented hs
    rw [hsize] at hstack
    rw [savedPc_segmented (p.segmented.trans hs) hstack, Address.plus_plus] at hsaved
    exact ⟨congrArg Address.off hsaved, fun _ => congrArg Address.seg hsaved⟩

/-! ### CALL, CALR and RET -/

/-- CALL computes its target before it pushes the PC (R302). -/
theorem execCall_pushed {dst : MemOp} {a : Address} (hwf : s.mem.wf = true) (hea : s.ea dst = .ok a) (ha : a.isEven = true)
    (heven : s.impliedStack.isEven = true) :
    ∃ t, exec (.call dst) s = .next t ∧ PcPushed s t ∧ t.pcOff = a.off ∧ t.pcSeg = if s.segmented then a.seg else s.pcSeg := by
  obtain ⟨t, hpush, p, -, hseg⟩ := pushPc_pushed hwf heven
  refine ⟨_, finish_next.2 (bind_ok.2 ⟨a, hea, bind_ok.2 ⟨t, hpush, jumpTo_of_even ha⟩⟩), p.jump _ ?_, rfl, ?_⟩
  · split
    · next hs => exact .inl hs
    · exact .inr rfl
  · rw [p.segmented, hseg]

theorem execCalr_pushed (disp : BitVec 12) (hwf : s.mem.wf = true) (heven : s.impliedStack.isEven = true) :
    ∃ t, exec (.calr disp) s = .next t ∧ PcPushed s t ∧ t.pcOff = s.pcOff - BitVec.ofInt 16 (2 * disp.toInt) ∧ t.pcSeg = s.pcSeg := by
  obtain ⟨t, hpush, p, hoff, hseg⟩ := pushPc_pushed hwf heven
  rw [← double_signExtend, ← hoff]
  exact ⟨_, finish_next.2 (bind_ok.2 ⟨t, hpush, rfl⟩), p.jump _ (.inr rfl), rfl, hseg⟩

/-- RET whose condition holds takes an even PC from the stack and moves the stack pointer over it (R308). -/
theorem execRet_next {cc : CondCode} {pc : Address} (hcc : s.fcw.cond cc = true) (heven : s.impliedStack.isEven = true)
    (hpc : s.savedPc = pc) (hpcEven : pc.isEven = true) :
    exec (.ret cc) s = .next { s.setReg 15 (s.reg 15 + s.pcSize) with pcSeg := pc.seg, pcOff := pc.off } := by
  refine finish_next.2 ((if_pos hcc).trans (popPc_ok.2 ?_))
  obtain ⟨haddr, hoff⟩ := s.addrReg_spCode
  have heven := s.impliedStack.isEven_iff.1 heven
  have hpcEven := pc.isEven_iff.1 hpcEven
  split
  · next hs =>
    obtain ⟨hcode, -, hsize⟩ := implied_segmented hs
    obtain rfl := (savedPc_segmented hs rfl).symm.trans hpc
    rw [hcode] at haddr hoff
    refine ⟨s.longAt s.impliedStack, s.setReg 15 (s.reg 15 + 4), popLong_ok.2 ⟨_, haddr, heven, rfl, by rw [hoff]; rfl⟩, ?_⟩
    rw [State.longAt, hiWord_append, loWord_append, hsize]
    exact ⟨hpcEven, rfl⟩
  · next hs =>
    have hs := Bool.eq_false_iff.2 hs
    obtain ⟨hcode, -, hsize⟩ := implied_nonsegmented hs
    obtain rfl := (savedPc_nonsegmented hs rfl).symm.trans hpc
    rw [hcode] at haddr hoff
    refine ⟨s.wordAt s.impliedStack, s.setReg 15 (s.reg 15 + 2), popWord_ok.2 ⟨_, haddr, heven, rfl, by rw [hoff]; rfl⟩, hpcEven, ?_⟩
    rw [hsize]
    rfl

end

/-! ### O46 -/

/-- Settles O46: each call leaves the PC pushed, and RET pops it. -/
theorem callsAndReturns : Obligations.CallsAndReturns := by
  refine ⟨fun s dst a sp hwf hs hea ha hsp heven => ?call, fun s dst a sp hwf hs hea ha hsp heven => ?callSegmented,
    fun s disp sp hwf hsp heven => ?calr, fun s cc hcc => ?retNot, fun s cc sp hcc hs hsp heven hpc => ?ret,
    fun s cc sp hcc hs hsp heven hpc => ?retSegmented⟩
  case call =>
    obtain ⟨hcode, -, hsize⟩ := implied_nonsegmented hs
    obtain rfl := impliedStack_eq (hcode ▸ hsp)
    obtain ⟨t, hnext, p, hoff, hseg⟩ := execCall_pushed hwf hea ha heven
    obtain ⟨hword, -⟩ := p.words
    rw [← Address.plus_neg]
    exact ⟨t, hnext, hoff, hseg.trans (if_neg (Bool.eq_false_iff.1 hs)), hsize ▸ p.reg15, hword⟩
  case callSegmented =>
    obtain ⟨hcode, -, hsize⟩ := implied_segmented hs
    obtain rfl := impliedStack_eq (hcode ▸ hsp)
    obtain ⟨t, hnext, p, hoff, hseg⟩ := execCall_pushed hwf hea ha heven
    obtain ⟨hword, hsegment⟩ := p.words
    rw [← Address.plus_neg, ← Address.plus_neg]
    exact ⟨t, hnext, hoff, hseg.trans (if_pos hs), hsize ▸ p.reg15, hsegment hs, hword⟩
  case calr =>
    obtain rfl := impliedStack_eq hsp
    obtain ⟨t, hnext, p, hoff, hseg⟩ := execCalr_pushed disp hwf heven
    obtain ⟨hword, hsegment⟩ := p.words
    rw [← Address.plus_neg, ← Address.plus_neg]
    exact ⟨t, hnext, hoff, hseg, p.reg15, hword, hsegment⟩
  case retNot => exact finish_next.2 (if_neg (Bool.eq_false_iff.1 hcc))
  case ret =>
    obtain ⟨hcode, -, hsize⟩ := implied_nonsegmented hs
    obtain rfl := impliedStack_eq (hcode ▸ hsp)
    have hnext := execRet_next hcc heven (savedPc_nonsegmented hs rfl) ((Address.isEven_iff _).2 hpc)
    exact ⟨_, hnext, rfl, rfl, hsize ▸ s.reg_setReg_same 15 _⟩
  case retSegmented =>
    obtain ⟨hcode, -, hsize⟩ := implied_segmented hs
    obtain rfl := impliedStack_eq (hcode ▸ hsp)
    have hnext := execRet_next hcc heven (savedPc_segmented hs rfl) ((Address.isEven_iff _).2 hpc)
    exact ⟨_, hnext, rfl, rfl, hsize ▸ s.reg_setReg_same 15 _⟩

/-! ### O47 -/

/-- Settles O47: the PC that CALL has pushed is what RET pops, and the two moves of the stack pointer cancel. -/
theorem returnUndoesCall : Obligations.ReturnUndoesCall := by
  intro s dst a sp hwf hpc hea ha hsp heven
  obtain rfl := impliedStack_eq hsp
  obtain ⟨t, hcall, p, -, -⟩ := execCall_pushed hwf hea ha heven
  have hstack : t.impliedStack.isEven = true := by
    rw [p.stack, Address.isEven_iff]
    exact Address.plus_even _ _ s.neg_pcSize_even (s.impliedStack.isEven_iff.1 heven)
  exact ⟨t, _, hcall, execRet_next rfl hstack p.savedPc hpc, rfl, rfl, p.gr_restored, p.fcw⟩

end Sys2Proof.Machine
end

section
/-! SUPPORT. The bit manipulation instructions (spec/45_bit_manipulation.md R320 to R328). -/

namespace Sys2Proof.Machine

/-! ### Bits -/

theorem getLsbD_resetBit {n : Nat} (b : Nat) (v : BitVec n) (i : Nat) : (resetBit b v).getLsbD i = (v.getLsbD i && i != b) := by
  rw [resetBit, BitVec.getLsbD_and, BitVec.getLsbD_not, BitVec.getLsbD_twoPow]
  by_cases hi : i = b
  · simp [hi]
  · have hne : (i != b) = true := bne_iff_ne.2 hi
    simpa [hne, Ne.symm hi] using BitVec.lt_of_getLsbD

theorem getLsbD_setBit {n b : Nat} (hb : b < n) (v : BitVec n) (i : Nat) : (setBit b v).getLsbD i = (v.getLsbD i || i == b) := by
  rw [setBit, BitVec.getLsbD_or, BitVec.getLsbD_twoPow]
  by_cases hi : i = b
  · simp [hi, hb]
  · simp [hi, Ne.symm hi]

/-- The bit number of a dynamic word form is below 16 (R320). -/
theorem State.wordBit_eq (s : State) (r : RegCode) : s.wordBit r = (s.reg r).toNat % 16 := by
  simp [State.wordBit]

/-- The bit number of a dynamic byte form is below 8 (R320). -/
theorem State.byteBit_eq (s : State) (r : RegCode) : s.byteBit r = (s.reg r).toNat % 8 := by
  simp [State.byteBit]

/-- A static bit number that byte forms admit is below 8. -/
theorem toNat_lt_of_bit3_clear {b : BitVec 4} (h : b.getLsbD 3 = false) : b.toNat < 8 := by
  revert b
  decide

/-! ### The shared operations -/

section
variable {n : Nat} {w : Width n} {s : State} {dst : RegMem} {v : BitVec n}

theorem testBit_next (b : Nat) (hread : readRegMem w s dst = .ok v) :
    ∃ t, finish (testBit w dst b s) = .next t ∧ t.fcw.z = !v.getLsbD b :=
  ⟨s.setFcw { s.fcw with z := !v.getLsbD b }, by simp only [testBit, hread, bind_of_ok, finish_ok], rfl⟩

/-- An operand that can be read is replaced by the function of it that an operation computes. -/
theorem modifyRegMem_next (W : WidthOperand w) (f : BitVec n → BitVec n) (hwf : s.mem.wf = true) (hread : readRegMem w s dst = .ok v) :
    ∃ t, finish (modifyRegMem w s dst f) = .next t ∧ readRegMem w t dst = .ok (f v) := by
  obtain ⟨t, hwrite, hback⟩ := readRegMem_writeRegMem W.back (f v) hwf hread
  exact ⟨t, finish_next.2 (bind_ok.2 ⟨v, hread, hwrite⟩), hback⟩

/-- TSET of an operand that can be read fills it with ones and leaves its old sign in S (R328). -/
theorem testAndSet_next (W : WidthOperand w) (hwf : s.mem.wf = true) (hread : readRegMem w s dst = .ok v) :
    ∃ t, finish (testAndSet w dst s) = .next t ∧ t.fcw.s = v.msb ∧ readRegMem w t dst = .ok (BitVec.allOnes n) := by
  obtain ⟨u, hwrite, hback⟩ := write_then_flags W (BitVec.allOnes n) (s.fcw.s_update v.msb) (by simp) hwf hread
  exact ⟨_, by simp only [testAndSet, hread, hwrite, bind_of_ok, finish_ok], rfl, hback⟩

/-- BIT, RES, SET and TSET of an operand that can be read, for a bit number within its width (R321, R323, R325, R328). -/
theorem bit_operand (W : WidthOperand w) {b : Nat} (hb : b < n) (hwf : s.mem.wf = true) (hread : readRegMem w s dst = .ok v) :
    (∃ t, finish (testBit w dst b s) = .next t ∧ t.fcw.z = !v.getLsbD b) ∧
    (∃ t r, finish (modifyRegMem w s dst (resetBit b)) = .next t ∧ readRegMem w t dst = .ok r ∧
      ∀ i, r.getLsbD i = (v.getLsbD i && i != b)) ∧
    (∃ t r, finish (modifyRegMem w s dst (setBit b)) = .next t ∧ readRegMem w t dst = .ok r ∧
      ∀ i, r.getLsbD i = (v.getLsbD i || i == b)) ∧
    (∃ t, finish (testAndSet w dst s) = .next t ∧ t.fcw.s = v.msb ∧ readRegMem w t dst = .ok (BitVec.allOnes n)) := by
  refine ⟨testBit_next b hread, ?reset, ?set, testAndSet_next W hwf hread⟩
  case reset =>
    obtain ⟨t, hnext, hback⟩ := modifyRegMem_next W (resetBit b) hwf hread
    exact ⟨t, _, hnext, hback, getLsbD_resetBit b v⟩
  case set =>
    obtain ⟨t, hnext, hback⟩ := modifyRegMem_next W (setBit b) hwf hread
    exact ⟨t, _, hnext, hback, getLsbD_setBit hb v⟩

end

section
variable (s : State) (d : RegCode)

/-- A word register is replaced by the function of it that an operation computes. -/
theorem modify_word_register (f : Word → Word) :
    ∃ t, finish (modifyRegMem wordWidth s (.reg d) f) = .next t ∧ t.reg d = f (s.reg d) :=
  ⟨_, rfl, s.reg_setReg_same d _⟩

/-- A byte register is replaced by the function of it that an operation computes. -/
theorem modify_byte_register (f : Byte → Byte) :
    ∃ t, finish (modifyRegMem byteWidth s (.reg d) f) = .next t ∧ t.rb d = f (s.rb d) :=
  ⟨_, rfl, s.rb_setRb_same d _⟩

end

/-! ### O48 -/

/-- Settles O48: the static forms are the shared operations on any operand, the dynamic forms those on a register with the bit number
reduced to the width. -/
theorem bitOperations : Obligations.BitOperations := by
  refine ⟨fun s dst b v hwf hread => bit_operand wordOperand b.isLt hwf hread,
    fun s dst b v hwf hb hread => bit_operand byteOperand (toNat_lt_of_bit3_clear hb) hwf hread, fun s d r => ?dynamic⟩
  rw [← s.wordBit_eq r, ← s.byteBit_eq r]
  have hword : s.wordBit r < 16 := BitVec.isLt _
  have hbyte : s.byteBit r < 8 := BitVec.isLt _
  refine ⟨testBit_next (w := wordWidth) (dst := .reg d) _ rfl, ?res, ?set, testBit_next (w := byteWidth) (dst := .reg d) _ rfl, ?resb, ?setb⟩
  case res =>
    obtain ⟨t, hnext, hreg⟩ := modify_word_register s d (resetBit (s.wordBit r))
    exact ⟨t, hnext, hreg ▸ getLsbD_resetBit _ _⟩
  case set =>
    obtain ⟨t, hnext, hreg⟩ := modify_word_register s d (setBit (s.wordBit r))
    exact ⟨t, hnext, hreg ▸ getLsbD_setBit hword _⟩
  case resb =>
    obtain ⟨t, hnext, hreg⟩ := modify_byte_register s d (resetBit (s.byteBit r))
    exact ⟨t, hnext, hreg ▸ getLsbD_resetBit _ _⟩
  case setb =>
    obtain ⟨t, hnext, hreg⟩ := modify_byte_register s d (setBit (s.byteBit r))
    exact ⟨t, hnext, hreg ▸ getLsbD_setBit hbyte _⟩

end Sys2Proof.Machine
end

section
/-! SUPPORT. Rotates, shifts and digit rotates (spec/46_rotate_shift.md R342 to R357). -/

namespace Sys2Proof.Machine

/-! ### Rotations of a number of n bits -/

theorem rotateLeft_rotateLeft {n : Nat} (v : BitVec n) (a b : Nat) : (v.rotateLeft a).rotateLeft b = v.rotateLeft (a + b) := by
  apply BitVec.eq_of_getMsbD_eq
  intro i hi
  have hmod : (b + i) % n < n := Nat.mod_lt _ (by omega)
  simp only [BitVec.getMsbD_rotateLeft, hi, hmod, decide_true, Bool.true_and, Nat.add_mod_mod, Nat.add_assoc]

/-- Bit i of a rotation to the right is bit r + i, around. -/
theorem getLsbD_rotateRight_mod {n i : Nat} (v : BitVec n) (r : Nat) (hi : i < n) :
    (v.rotateRight r).getLsbD i = v.getLsbD ((r + i) % n) := by
  have hr : r % n < n := Nat.mod_lt _ (by omega)
  rw [BitVec.getLsbD_rotateRight, ← Nat.mod_add_mod]
  by_cases hwrap : i < n - r % n
  · simp only [hwrap, decide_true, cond_true, Nat.mod_eq_of_lt (show r % n + i < n by omega)]
  · have hsub : r % n + i - n = i - (n - r % n) := by omega
    have hlt : i - (n - r % n) < n := by omega
    simp only [hwrap, hi, decide_true, decide_false, cond_false, Bool.true_and, Nat.mod_eq_sub_mod (show n ≤ r % n + i by omega), hsub,
      Nat.mod_eq_of_lt hlt]

theorem rotateRight_rotateRight {n : Nat} (v : BitVec n) (a b : Nat) : (v.rotateRight a).rotateRight b = v.rotateRight (a + b) := by
  apply BitVec.eq_of_getLsbD_eq
  intro i hi
  have hmod : (b + i) % n < n := Nat.mod_lt _ (by omega)
  simp only [getLsbD_rotateRight_mod, hi, hmod, Nat.add_mod_mod, Nat.add_assoc]

/-! ### One place -/

theorem getLsbD_lowBit (n : Nat) (c : Bool) (i : Nat) : (lowBit n c).getLsbD i = (decide (i < n) && decide (i = 0) && c) := by
  simp [lowBit, BitVec.getLsbD_setWidth, BitVec.getLsbD_ofBool, Bool.and_assoc]

section
variable {n : Nat} (v : BitVec n) (c : Bool)

theorem lowBit_msb : lowBit n v.msb = v >>> (n - 1) := by
  apply BitVec.eq_of_getLsbD_eq
  intro i hi
  rw [getLsbD_lowBit, BitVec.getLsbD_ushiftRight, BitVec.msb_eq_getLsbD_last]
  cases i with
  | zero => simp [hi]
  | succ i => simpa using BitVec.getLsbD_of_ge v _ (by omega)

theorem topBit_lsb : topBit n (v.getLsbD 0) = v <<< (n - 1) := by
  apply BitVec.eq_of_getLsbD_eq
  intro i hi
  rw [topBit, BitVec.getLsbD_shiftLeft, BitVec.getLsbD_shiftLeft, getLsbD_lowBit]
  have hlast : i < n - 1 ∨ i - (n - 1) = 0 := by omega
  rcases hlast with hlow | hzero
  · simp [hlow]
  · simp [hzero, show 0 < n by omega]

theorem rotLeft_value (hn : 1 < n) : (rotLeft v c).1 = v.rotateLeft 1 := by
  rw [rotLeft, lowBit_msb, BitVec.rotateLeft_def, Nat.mod_eq_of_lt hn]

theorem rotRight_value (hn : 1 < n) : (rotRight v c).1 = v.rotateRight 1 := by
  rw [rotRight, topBit_lsb, BitVec.rotateRight_def, Nat.mod_eq_of_lt hn]

/-- The bit that RL moves around is the new lowest one (R342). -/
theorem rotLeft_carry (hn : 0 < n) : (rotLeft v c).2 = (rotLeft v c).1.getLsbD 0 := by
  simp only [rotLeft, BitVec.getLsbD_or, BitVec.getLsbD_shiftLeft, getLsbD_lowBit, hn]
  simp

/-- The bit that RR moves around is the new highest one (R344). -/
theorem rotRight_carry (hn : 0 < n) : (rotRight v c).2 = (rotRight v c).1.msb := by
  have hpast : v.getLsbD (1 + (n - 1)) = false := BitVec.getLsbD_of_ge _ _ (by omega)
  simp only [rotRight, topBit, BitVec.msb_eq_getLsbD_last, BitVec.getLsbD_or, BitVec.getLsbD_ushiftRight, BitVec.getLsbD_shiftLeft,
    getLsbD_lowBit, hpast]
  simp [hn]

/-- RLC takes the carry as the bit above the register (R343). -/
theorem rotLeftCarry_value (hn : 0 < n) :
    BitVec.ofBool (rotLeftCarry v c).2 ++ (rotLeftCarry v c).1 = (BitVec.ofBool c ++ v).rotateLeft 1 := by
  apply BitVec.eq_of_getLsbD_eq
  intro i hi
  rw [BitVec.getLsbD_rotateLeft, Nat.mod_eq_of_lt (show 1 < 1 + n by omega)]
  simp only [rotLeftCarry, BitVec.getLsbD_append, BitVec.getLsbD_or, BitVec.getLsbD_shiftLeft, getLsbD_lowBit, BitVec.getLsbD_ofBool,
    BitVec.msb_eq_getLsbD_last]
  have hplace : i = 0 ∨ 0 < i ∧ i < n ∨ 0 < i ∧ i = n := by omega
  rcases hplace with hlow | ⟨hpos, hlt⟩ | ⟨hpos, htop⟩
  · simp [hlow, hn]
  · have hbelow : i - 1 < n := by omega
    simp [hlt, hi, hpos.ne', hbelow]
  · subst htop
    simp [hpos.ne', hpos]

/-- RRC takes the carry as the bit above the register (R345). -/
theorem rotRightCarry_value (hn : 0 < n) :
    BitVec.ofBool (rotRightCarry v c).2 ++ (rotRightCarry v c).1 = (BitVec.ofBool c ++ v).rotateRight 1 := by
  apply BitVec.eq_of_getLsbD_eq
  intro i hi
  rw [getLsbD_rotateRight_mod _ _ hi]
  simp only [rotRightCarry, topBit, BitVec.getLsbD_append, BitVec.getLsbD_or, BitVec.getLsbD_ushiftRight, BitVec.getLsbD_shiftLeft,
    getLsbD_lowBit, BitVec.getLsbD_ofBool]
  have hplace : i = n ∨ i + 1 = n ∨ i + 1 < n := by omega
  rcases hplace with htop | hlast | hlt
  · rw [htop, Nat.mod_self]
    simp [hn]
  · subst hlast
    rw [Nat.mod_eq_of_lt (by omega), Nat.add_comm 1 i]
    simp
  · rw [Nat.mod_eq_of_lt (by omega)]
    have hbelow : i < n - 1 := by omega
    simp [hlt, hbelow, Nat.add_comm 1 i, show i < n by omega]

end

/-! ### One or two places -/

section
variable {n : Nat} {one : BitVec n → Bool → BitVec n × Bool} {two : Bool}

/-- What holds of every single place holds of the last one. -/
theorem rotate_last {P : BitVec n × Bool → Prop} (hone : ∀ v c, P (one v c)) (v : BitVec n) (c : Bool) : P (rotate one two v c) := by
  cases two
  · exact hone v c
  · exact hone _ _

/-- When one place of `one` turns a number `enc` made of value and carry by 1, then the rotate turns it by the number of its places. -/
theorem rotate_turns {m : Nat} {enc : BitVec n × Bool → BitVec m} {turn : BitVec m → Nat → BitVec m}
    (hone : ∀ v c, enc (one v c) = turn (enc (v, c)) 1) (hturn : ∀ x, turn (turn x 1) 1 = turn x 2) (v : BitVec n) (c : Bool) :
    enc (rotate one two v c) = turn (enc (v, c)) (if two then 2 else 1) := by
  cases two
  · exact hone v c
  · exact (hone _ _).trans ((congrArg (turn · 1) (hone v c)).trans (hturn _))

end

section
variable {n : Nat} (v : BitVec n) (c two : Bool)

theorem rotate_rotLeft (hn : 1 < n) : (rotate rotLeft two v c).1 = v.rotateLeft (if two then 2 else 1) ∧
    (rotate rotLeft two v c).2 = (rotate rotLeft two v c).1.getLsbD 0 :=
  ⟨rotate_turns (enc := Prod.fst) (rotLeft_value · · hn) (rotateLeft_rotateLeft · 1 1) v c,
    rotate_last (P := fun p => p.2 = p.1.getLsbD 0) (rotLeft_carry · · (by omega)) v c⟩

theorem rotate_rotRight (hn : 1 < n) : (rotate rotRight two v c).1 = v.rotateRight (if two then 2 else 1) ∧
    (rotate rotRight two v c).2 = (rotate rotRight two v c).1.msb :=
  ⟨rotate_turns (enc := Prod.fst) (rotRight_value · · hn) (rotateRight_rotateRight · 1 1) v c,
    rotate_last (P := fun p => p.2 = p.1.msb) (rotRight_carry · · (by omega)) v c⟩

theorem rotate_rotLeftCarry (hn : 0 < n) : BitVec.ofBool (rotate rotLeftCarry two v c).2 ++ (rotate rotLeftCarry two v c).1 =
    (BitVec.ofBool c ++ v).rotateLeft (if two then 2 else 1) :=
  rotate_turns (enc := fun p => BitVec.ofBool p.2 ++ p.1) (rotLeftCarry_value · · hn) (rotateLeft_rotateLeft · 1 1) v c

theorem rotate_rotRightCarry (hn : 0 < n) : BitVec.ofBool (rotate rotRightCarry two v c).2 ++ (rotate rotRightCarry two v c).1 =
    (BitVec.ofBool c ++ v).rotateRight (if two then 2 else 1) :=
  rotate_turns (enc := fun p => BitVec.ofBool p.2 ++ p.1) (rotRightCarry_value · · hn) (rotateRight_rotateRight · 1 1) v c

end

/-! ### Shifts of a number of n bits -/

section
variable {n : Nat} (kind : ShiftKind) (v : BitVec n) {c : Int}

theorem shiftBy_zero : shiftBy kind v 0 = (v, none) := if_pos rfl

theorem shiftBy_pos (hc : 0 < c) : shiftBy kind v c = (v <<< c.toNat, some (v.getLsbD (n - c.toNat))) :=
  (if_neg hc.ne').trans (if_pos hc)

theorem shiftBy_neg (hc : c < 0) :
    shiftBy kind v c = (match kind with | .arithmetic => v.sshiftRight (-c).toNat | .logical => v >>> (-c).toNat,
      some (v.getLsbD ((-c).toNat - 1))) := by
  rw [shiftBy, if_neg hc.ne, if_neg hc.not_gt]
  cases kind <;> rfl

theorem shiftLeft_eq_ofInt (k : Nat) : v <<< k = BitVec.ofInt n (v.toInt * 2 ^ k) := by
  have htwo : BitVec.ofInt n (2 ^ k) = BitVec.twoPow n k := by
    apply BitVec.eq_of_toNat_eq
    rw [BitVec.toNat_ofInt, BitVec.toNat_twoPow]
    norm_cast
  rw [BitVec.ofInt_mul, BitVec.ofInt_toInt, htwo, BitVec.mul_twoPow_eq_shiftLeft]

/-- P/V of an arithmetic shift: the shifted number does not fit; a number shifted to the right always does (R352, R353). -/
theorem shiftOverflow_iff (c : Int) : shiftOverflow v c = true ↔ ¬ fitsSigned n (v.toInt * 2 ^ c.toNat) := by
  rw [shiftOverflow, Bool.and_eq_true, decide_eq_true_iff, outOfRange_iff, and_iff_right_iff_imp]
  intro hover
  by_contra hc
  rw [Int.toNat_of_nonpos (by omega), pow_zero, mul_one] at hover
  exact hover (fitsSigned_toInt v)

variable {kind v}

/-- A shift of R351 is what R351 to R357 say of it, in an FCW that has Z, S, C and P/V from it. -/
theorem shiftBy_isShift {r : BitVec n} {out : Option Bool} (hr : shiftBy kind v c = (r, out)) {f : Fcw} (hz : f.z = true ↔ r = 0)
    (hs : f.s = r.msb) (hc : ∀ b, out = some b → f.c = b) (hv : kind = .arithmetic → f.pv = shiftOverflow v c) :
    IsShift (kind == .arithmetic) v c r f where
  zero := hz
  sign := hs
  left hnonneg := by
    rcases hnonneg.eq_or_lt with rfl | hpos
    · obtain ⟨rfl, -⟩ := Prod.mk.inj ((shiftBy_zero kind v).symm.trans hr)
      simp
    · obtain ⟨rfl, -⟩ := Prod.mk.inj ((shiftBy_pos kind v hpos).symm.trans hr)
      exact shiftLeft_eq_ofInt v _
  leftOut hpos := hc _ (Prod.mk.inj ((shiftBy_pos kind v hpos).symm.trans hr)).2.symm
  right hneg := by
    obtain ⟨rfl, -⟩ := Prod.mk.inj ((shiftBy_neg kind v hneg).symm.trans hr)
    cases kind
    · exact BitVec.toInt_sshiftRight.trans (Int.shiftRight_eq_div_pow ..)
    · exact (BitVec.toNat_ushiftRight ..).trans (Nat.shiftRight_eq_div_pow ..)
  rightOut hneg := hc _ (Prod.mk.inj ((shiftBy_neg kind v hneg).symm.trans hr)).2.symm
  overflow harith := by rw [hv (beq_iff_eq.1 harith), shiftOverflow_iff]

end

/-! ### The shared operations on a register -/

/-- The FCW is as before after a draw that is made or not. -/
theorem fcw_drawnIf (s : State) (p : Prop) [Decidable p] : (if p then s.drawn else s).fcw = s.fcw := (Effect.drawnIf s p).fcw.eq

section
variable {n : Nat} {w : Width n} {d : RegCode} {read : State → BitVec n}

/-- A register written after draws reads back under the flags of the result. -/
theorem set_then_result_flags (W : WidthOperand w) (hget : ∀ u, w.get u d = .ok (read u)) {s u : State} (hfcw : u.fcw = s.fcw)
    (r : BitVec n) (c v : Bool) :
    ∃ t, w.set u d r = .ok t ∧ read (t.setFcw { s.fcw with c := c, z := r == 0, s := r.msb, pv := v }) = r := by
  rw [← hfcw]
  obtain ⟨t, hset, hback⟩ := set_then_flags W r (u.fcw.czsv_update c (r == 0) r.msb v) (by simp) (hget u)
  exact ⟨t, hset, Except.ok.inj ((hget _).symm.trans hback)⟩

/-- What R says of a rotated value and carry, a rotate leaves true of the register and C, with the flags of the result. -/
theorem rotateReg_next (W : WidthOperand w) (hget : ∀ u, w.get u d = .ok (read u)) {one : BitVec n → Bool → BitVec n × Bool}
    {two : Bool} {s : State} (R : BitVec n → Bool → Prop)
    (hR : R (rotate one two (read s) s.fcw.c).1 (rotate one two (read s) s.fcw.c).2) :
    ∃ t, finish (rotateReg w one d two s) = .next t ∧ R (read t) t.fcw.c ∧
      (t.fcw.z = true ↔ read t = 0) ∧ t.fcw.s = (read t).msb ∧ (two = false → t.fcw.pv = ((read t).msb != (read s).msb)) := by
  rcases hr : rotate one two (read s) s.fcw.c with ⟨r, c⟩
  obtain ⟨t, hset, hread⟩ := set_then_result_flags W hget (fcw_drawnIf s (two = true)) r c
    (if two then s.freeBit else r.msb != (read s).msb)
  simp only [rotateReg, hget, hr, hset, bind_of_ok, finish_ok]
  refine ⟨_, rfl, ?_⟩
  rw [hread]
  rw [hr] at hR
  exact ⟨hR, beq_iff_eq, rfl, fun htwo => if_neg (Bool.eq_false_iff.1 htwo)⟩

/-- A shift by at most the width leaves the shifted value in the register, with the flags of the shift. -/
theorem shiftReg_next (W : WidthOperand w) (hget : ∀ u, w.get u d = .ok (read u)) (kind : ShiftKind) {c : Int} (hc : c.natAbs ≤ n)
    (s : State) : ∃ t, finish (shiftReg w kind d c s) = .next t ∧ IsShift (kind == .arithmetic) (read s) c (read t) t.fcw := by
  rcases hr : shiftBy kind (read s) c with ⟨r, out⟩
  have hfcw := (fcw_drawnIf _ (kind = .logical)).trans (fcw_drawnIf s (out.isNone = true))
  obtain ⟨t, hset, hread⟩ := set_then_result_flags W hget hfcw r
    (out.getD s.freeBit) (if kind = .logical then (if out.isNone then s.drawn else s).freeBit else shiftOverflow (read s) c)
  simp only [shiftReg, if_neg (Nat.not_lt.2 hc), hget, hr, hset, bind_of_ok, finish_ok]
  refine ⟨_, rfl, ?_⟩
  rw [hread]
  refine shiftBy_isShift hr beq_iff_eq rfl ?_ ?_
  · rintro b rfl; rfl
  · rintro rfl; rfl

/-- A shift by more than the width is refused (R350). -/
theorem shiftReg_refused (kind : ShiftKind) {c : Int} (hc : n < c.natAbs) (s : State) :
    finish (shiftReg w kind d c s) = .refused .badShiftCount := by
  simp only [shiftReg, if_pos hc, finish_error]

/-- The four rotates at a width (R342 to R345). -/
theorem rotates_at_width (W : WidthOperand w) (hget : ∀ u, w.get u d = .ok (read u)) (hn : 1 < n) (s : State) (two : Bool) :
    (∃ t, finish (rotateReg w rotLeft d two s) = .next t ∧ read t = (read s).rotateLeft (if two then 2 else 1) ∧
      t.fcw.c = (read t).getLsbD 0 ∧ (t.fcw.z = true ↔ read t = 0) ∧ t.fcw.s = (read t).msb ∧
      (two = false → t.fcw.pv = ((read t).msb != (read s).msb))) ∧
    (∃ t, finish (rotateReg w rotRight d two s) = .next t ∧ read t = (read s).rotateRight (if two then 2 else 1) ∧
      t.fcw.c = (read t).msb ∧ (t.fcw.z = true ↔ read t = 0) ∧ t.fcw.s = (read t).msb ∧
      (two = false → t.fcw.pv = ((read t).msb != (read s).msb))) ∧
    (∃ t, finish (rotateReg w rotLeftCarry d two s) = .next t ∧
      BitVec.ofBool t.fcw.c ++ read t = (BitVec.ofBool s.fcw.c ++ read s).rotateLeft (if two then 2 else 1) ∧
      (t.fcw.z = true ↔ read t = 0) ∧ t.fcw.s = (read t).msb ∧ (two = false → t.fcw.pv = ((read t).msb != (read s).msb))) ∧
    (∃ t, finish (rotateReg w rotRightCarry d two s) = .next t ∧
      BitVec.ofBool t.fcw.c ++ read t = (BitVec.ofBool s.fcw.c ++ read s).rotateRight (if two then 2 else 1) ∧
      (t.fcw.z = true ↔ read t = 0) ∧ t.fcw.s = (read t).msb ∧ (two = false → t.fcw.pv = ((read t).msb != (read s).msb))) := by
  have hpos : 0 < n := by omega
  refine ⟨?left, ?right, ?leftCarry, ?rightCarry⟩
  case left =>
    simpa only [and_assoc] using rotateReg_next W hget
      (fun r c => r = (read s).rotateLeft (if two then 2 else 1) ∧ c = r.getLsbD 0) (rotate_rotLeft _ _ two hn)
  case right =>
    simpa only [and_assoc] using rotateReg_next W hget
      (fun r c => r = (read s).rotateRight (if two then 2 else 1) ∧ c = r.msb) (rotate_rotRight _ _ two hn)
  case leftCarry =>
    exact rotateReg_next W hget
      (fun r c => BitVec.ofBool c ++ r = (BitVec.ofBool s.fcw.c ++ read s).rotateLeft (if two then 2 else 1))
      (rotate_rotLeftCarry _ _ two hpos)
  case rightCarry =>
    exact rotateReg_next W hget
      (fun r c => BitVec.ofBool c ++ r = (BitVec.ofBool s.fcw.c ++ read s).rotateRight (if two then 2 else 1))
      (rotate_rotRightCarry _ _ two hpos)

/-- The static shifts at a width (R352 to R355). -/
theorem static_shifts_at_width (W : WidthOperand w) (hget : ∀ u, w.get u d = .ok (read u)) (s : State) (k : Nat) :
    (k ≤ n →
      (∃ t, finish (shiftReg w .arithmetic d k s) = .next t ∧ IsShift true (read s) k (read t) t.fcw) ∧
      (∃ t, finish (shiftReg w .arithmetic d (-k) s) = .next t ∧ IsShift true (read s) (-k) (read t) t.fcw) ∧
      (∃ t, finish (shiftReg w .logical d k s) = .next t ∧ IsShift false (read s) k (read t) t.fcw) ∧
      (∃ t, finish (shiftReg w .logical d (-k) s) = .next t ∧ IsShift false (read s) (-k) (read t) t.fcw)) ∧
    (n < k → finish (shiftReg w .arithmetic d k s) = .refused .badShiftCount ∧
      finish (shiftReg w .arithmetic d (-k) s) = .refused .badShiftCount ∧
      finish (shiftReg w .logical d k s) = .refused .badShiftCount ∧
      finish (shiftReg w .logical d (-k) s) = .refused .badShiftCount) := by
  have hleft : (k : Int).natAbs = k := Int.natAbs_natCast k
  have hright : (-k : Int).natAbs = k := (Int.natAbs_neg _).trans hleft
  refine ⟨fun hk => ?_, fun hk => ?_⟩
  · exact ⟨shiftReg_next W hget .arithmetic (hleft.trans_le hk) s, shiftReg_next W hget .arithmetic (hright.trans_le hk) s,
      shiftReg_next W hget .logical (hleft.trans_le hk) s, shiftReg_next W hget .logical (hright.trans_le hk) s⟩
  · exact ⟨shiftReg_refused .arithmetic (hk.trans_eq hleft.symm) s, shiftReg_refused .arithmetic (hk.trans_eq hright.symm) s,
      shiftReg_refused .logical (hk.trans_eq hleft.symm) s, shiftReg_refused .logical (hk.trans_eq hright.symm) s⟩

/-- The dynamic shifts at a width, for the count c (R356, R357). -/
theorem dynamic_shifts_at_width (W : WidthOperand w) (hget : ∀ u, w.get u d = .ok (read u)) (s : State) (c : Int) :
    (c.natAbs ≤ n →
      (∃ t, finish (shiftReg w .arithmetic d c s) = .next t ∧ IsShift true (read s) c (read t) t.fcw) ∧
      (∃ t, finish (shiftReg w .logical d c s) = .next t ∧ IsShift false (read s) c (read t) t.fcw)) ∧
    (n < c.natAbs → finish (shiftReg w .arithmetic d c s) = .refused .badShiftCount ∧
      finish (shiftReg w .logical d c s) = .refused .badShiftCount) :=
  ⟨fun hc => ⟨shiftReg_next W hget .arithmetic hc s, shiftReg_next W hget .logical hc s⟩,
    fun hc => ⟨shiftReg_refused .arithmetic hc s, shiftReg_refused .logical hc s⟩⟩

end

/-! ### O49, O50 -/

/-- Settles O49: the four rotates of words and of bytes are those of their width. -/
theorem rotatesRotate : Obligations.RotatesRotate :=
  ⟨fun s d two => rotates_at_width (read := (State.reg · d)) wordOperand (fun _ => rfl) (by decide) s two,
    fun s d two => rotates_at_width (read := (State.rb · d)) byteOperand (fun _ => rfl) (by decide) s two⟩

/-- Settles O50: the shifts of words, bytes and long words are those of their width, a dynamic shift those by its signed count. -/
theorem shiftsShift : Obligations.ShiftsShift := by
  refine ⟨fun s d k => ?word, fun s d k => ?byte, fun s d k hd => ?long, fun s d r => ?dynWord, fun s d r c hcount => ?dynByte,
    fun s d r hd => ?dynLong⟩
  case word => exact static_shifts_at_width (read := (State.reg · d)) wordOperand (fun _ => rfl) s k
  case byte => exact static_shifts_at_width (read := (State.rb · d)) byteOperand (fun _ => rfl) s k
  case long => exact static_shifts_at_width (read := (State.rr · d)) longOperand (fun _ => longWidth_get_even hd) s k
  case dynWord => exact dynamic_shifts_at_width (read := (State.reg · d)) wordOperand (fun _ => rfl) s _
  case dynByte =>
    subst hcount
    exact dynamic_shifts_at_width (read := (State.rb · d)) byteOperand (fun _ => rfl) s _
  case dynLong => exact dynamic_shifts_at_width (read := (State.rr · d)) longOperand (fun _ => longWidth_get_even hd) s _

/-! ### O51 -/

section
variable {s : State} {hi lo l r : RegCode}

/-- The link and the source are the fields in the order of RLDB_FIELD_ORDER (R346). -/
theorem digitFields_eq (hfirst : s.cfg.rldbFieldOrder = .srcThenLink → l = lo ∧ r = hi)
    (hsecond : s.cfg.rldbFieldOrder = .linkThenSrc → l = hi ∧ r = lo) : digitFields s.cfg.rldbFieldOrder hi lo = (l, r) := by
  cases horder : s.cfg.rldbFieldOrder with
  | srcThenLink => obtain ⟨rfl, rfl⟩ := hfirst horder; rfl
  | linkThenSrc => obtain ⟨rfl, rfl⟩ := hsecond horder; rfl

/-- A byte register that is written reads back after the flags, and no other one changes. -/
theorem State.rb_setRb_setFcw (s : State) {f : Fcw} (hsn : f.sn = s.fcw.sn) (c e : RegCode) (v : Byte) :
    ((s.setRb c v).setFcw f).rb e = if e = c then v else s.rb e :=
  (State.rb_setFcw (s := s.setRb c v) hsn e).trans (s.rb_setRb c e v)

/-- A digit rotate of two byte registers leaves the new bytes in them, and in Z that the new link is 0. -/
theorem rotateDigit_next (f : Byte → Byte → Byte × Byte) (hfields : digitFields s.cfg.rldbFieldOrder hi lo = (l, r)) (hne : l ≠ r) :
    ∃ t, finish (rotateDigit f hi lo s) = .next t ∧ t.rb r = (f (s.rb l) (s.rb r)).2 ∧ t.rb l = (f (s.rb l) (s.rb r)).1 ∧
      (t.fcw.z = true ↔ t.rb l = 0) := by
  simp only [rotateDigit, hfields, if_neg hne, finish_ok]
  refine ⟨_, rfl, ?source, ?link, ?zero⟩
  case source => exact (State.rb_setRb_setFcw _ rfl ..).trans ((if_neg hne.symm).trans (State.rb_setRb_same ..))
  case link => exact (State.rb_setRb_setFcw _ rfl ..).trans (if_pos rfl)
  case zero => exact beq_iff_eq.trans (Eq.congr_left ((State.rb_setRb_setFcw _ rfl ..).trans (if_pos rfl)).symm)

/-- The same register for the link and the source is refused (R346, R347). -/
theorem rotateDigit_same_register (f : Byte → Byte → Byte × Byte) (s : State) (r : RegCode) :
    finish (rotateDigit f r r s) = .refused .rldbSameRegister := by
  have hfields : digitFields s.cfg.rldbFieldOrder r r = (r, r) := digitFields_eq (fun _ => ⟨rfl, rfl⟩) fun _ => ⟨rfl, rfl⟩
  simp only [rotateDigit, hfields, if_true, finish_error]

end

/-- Settles O51: RLDB and RRDB are the shared operation with `digitLeft` and `digitRight`. -/
theorem digitRotatesMoveDigits : Obligations.DigitRotatesMoveDigits := by
  refine ⟨fun s hi lo l r hfirst hsecond hne => ?_, fun s r => ⟨rotateDigit_same_register _ s r, rotateDigit_same_register _ s r⟩⟩
  have hfields := digitFields_eq hfirst hsecond
  exact ⟨rotateDigit_next digitLeft hfields hne, rotateDigit_next digitRight hfields hne⟩

end Sys2Proof.Machine
end

section
/-! SUPPORT. What the iterations of the block instructions share (spec/47_block_string.md R370 to R373; spec/48_input_output.md R420): the
registers that they step, the elements in memory, and the single and the repeating forms. -/

namespace Sys2Proof.Machine

/-! ### Registers that do not overlap (R372) -/

theorem overlap_eq_false_iff (a b : List RegCode) : overlap a b = false ↔ ∀ x ∈ a, x ∉ b := by
  rw [← Bool.not_eq_true, overlap_iff]
  simp only [not_exists, not_and]

theorem disjoint3_iff (a b c : List RegCode) : disjoint3 a b c = true ↔ (∀ x ∈ a, x ∉ b ∧ x ∉ c) ∧ ∀ x ∈ b, x ∉ c := by
  simp only [disjoint3, Bool.and_eq_true, Bool.not_eq_true', overlap_eq_false_iff, forall₂_and]

section
variable {s : State} {p d r : RegCode}

/-- The register that an iteration steps is not its count. -/
theorem stepped_ne_count {regs : List RegCode} (h : disjoint3 (s.addrRegs p) regs [r] = true) : s.offReg p ≠ r :=
  List.ne_of_not_mem_cons (((disjoint3_iff ..).1 h).1 _ (s.offReg_mem_addrRegs p)).2

/-- The registers that an iteration over two addresses steps are three different ones. -/
theorem stepped_apart (h : disjoint3 (s.addrRegs p) (s.addrRegs d) [r] = true) :
    s.offReg p ≠ s.offReg d ∧ s.offReg p ≠ r ∧ s.offReg d ≠ r := by
  obtain ⟨hp, hd⟩ := (disjoint3_iff ..).1 h
  refine ⟨fun heq => ?_, stepped_ne_count h, List.ne_of_not_mem_cons (hd _ (s.offReg_mem_addrRegs d))⟩
  exact (hp _ (s.offReg_mem_addrRegs p)).1 (heq ▸ s.offReg_mem_addrRegs d)

/-- A register beside the address is not one that the iteration steps. -/
theorem beside_not_stepped (h : disjoint3 (s.addrRegs p) [d] [r] = true) : d ∉ [s.offReg p, r] := by
  obtain ⟨hp, hd⟩ := (disjoint3_iff ..).1 h
  have hpd := (hp _ (s.offReg_mem_addrRegs p)).1
  exact List.not_mem_cons_of_ne_of_not_mem (List.ne_of_not_mem_cons hpd).symm (hd d (List.mem_singleton_self d))

/-- No register of the second address is one that an iteration over the first one steps. -/
theorem second_address_apart (h : disjoint3 (s.addrRegs d) (s.addrRegs p) [r] = true) : ∀ m ∈ s.addrRegs p, m ∉ [s.offReg d, r] := by
  obtain ⟨hd, hp⟩ := (disjoint3_iff ..).1 h
  exact fun m hm => List.not_mem_cons_of_ne_of_not_mem
    (fun heq => (hd _ (s.offReg_mem_addrRegs d)).1 (heq ▸ hm)) (hp m hm)

end

/-! ### Registers stepped -/

section
variable (s : State)

theorem State.reg_autoStep (n m : RegCode) (k : Word) : (s.autoStep n k).reg m = if m = s.offReg n then s.reg m + k else s.reg m := by
  rw [State.autoStep, State.reg_setReg]
  split
  · next h => rw [h]
  · rfl

theorem State.reg_countDown (r m : RegCode) : (s.countDown r).reg m = if m = r then s.reg m - 1 else s.reg m := by
  rw [State.countDown, State.reg_setReg]
  split
  · next h => rw [h]
  · rfl

@[simp] theorem State.offReg_autoStep (n m : RegCode) (k : Word) : (s.autoStep n k).offReg m = s.offReg m := rfl
@[simp] theorem State.offReg_countDown (r m : RegCode) : (s.countDown r).offReg m = s.offReg m := rfl
@[simp] theorem State.offReg_writeByte (a : Address) (v : Byte) (m : RegCode) : (s.writeByte a v).offReg m = s.offReg m := rfl
@[simp] theorem State.offReg_setRb (c m : RegCode) (v : Byte) : (s.setRb c v).offReg m = s.offReg m := rfl
@[simp] theorem State.offReg_emit (e : OutEvent) (m : RegCode) : (s.emit e).offReg m = s.offReg m := rfl

@[simp] theorem blockFlags_reg (r m : RegCode) : (blockFlags r s).reg m = s.reg m := rfl
@[simp] theorem blockFlags_pcOff (r : RegCode) : (blockFlags r s).pcOff = s.pcOff := rfl
@[simp] theorem blockFlags_pv (r : RegCode) : (blockFlags r s).fcw.pv = (s.reg r == 0) := rfl

@[simp] theorem compareFlags_reg (found : Bool) (r m : RegCode) : (compareFlags found r s).reg m = s.reg m := rfl
@[simp] theorem compareFlags_offReg (found : Bool) (r m : RegCode) : (compareFlags found r s).offReg m = s.offReg m := rfl
@[simp] theorem compareFlags_pcOff (found : Bool) (r : RegCode) : (compareFlags found r s).pcOff = s.pcOff := rfl
@[simp] theorem compareFlags_pv (found : Bool) (r : RegCode) : (compareFlags found r s).fcw.pv = (s.reg r == 0) := rfl
@[simp] theorem compareFlags_z (found : Bool) (r : RegCode) : (compareFlags found r s).fcw.z = found := rfl

end

section
variable {s t : State} {p : RegCode} {a : Address} {bits : List FcwBit} {parts : List Part}

/-- The register that an iteration steps holds the offset of the address. -/
theorem reg_offReg_of_addrReg (h : s.addrReg p = .ok a) : s.reg (s.offReg p) = a.off := by
  cases hseg : s.segmented with
  | false =>
    rw [addrReg_nonsegmented hseg] at h
    cases h
    rw [(offReg_nonsegmented hseg).1]
  | true =>
    cases hodd : p.getLsbD 0 with
    | false =>
      rw [addrReg_pair hseg hodd] at h
      cases h
      rw [(offReg_segmented hseg).1]
    | true =>
      rw [addrReg_odd hseg hodd] at h
      cases h

/-- The address in registers that an effect does not reach is as before. -/
theorem Effect.addrReg {rs : List RegCode} (e : Effect s t (bothHalves (rs.map s.phys)) bits parts) (hsn : .sn ∉ bits) (hseg : .seg ∉ bits)
    (hpc : .pcSeg ∉ parts) (hp : ∀ m ∈ s.addrRegs p, m ∉ rs) : t.addrReg p = s.addrReg p := by
  have hreg : ∀ m ∈ s.addrRegs p, t.reg m = s.reg m := fun m hm => e.reg hsn (hp m hm)
  unfold State.addrRegs at hreg
  unfold State.addrReg
  rw [e.segmented hseg, e.pcSeg hpc]
  cases hs : s.segmented with
  | true =>
    rw [if_pos hs] at hreg
    rw [hreg p (by simp), hreg (p + 1) (by simp)]
  | false =>
    rw [if_neg (Bool.eq_false_iff.1 hs)] at hreg
    rw [hreg p (by simp)]
    rfl

end

/-! ### One element -/

/-- At this address the width reads an element, out of the memory alone, and stores one that reads back. -/
structure ElementAt {n : Nat} (w : Width n) (a : Address) (read : State → BitVec n) : Prop where
  load : ∀ s, w.load s a = .ok (read s)
  read_congr : ∀ {s t : State}, t.cfg = s.cfg → t.mem = s.mem → read t = read s
  store : ∀ {s : State} (v : BitVec n), s.mem.wf = true → ∃ t, w.store s a v = .ok t ∧ read t = v ∧ Effect s t [] [] []

theorem State.readByte_congr {s t : State} (hcfg : t.cfg = s.cfg) (hmem : t.mem = s.mem) (a : Address) : t.readByte a = s.readByte a := by
  rw [State.readByte, State.readByte, State.key_congr s t hcfg, hmem]

theorem byteElement (a : Address) : ElementAt byteWidth a (State.readByte · a) where
  load _ := rfl
  read_congr hcfg hmem := State.readByte_congr hcfg hmem a
  store {s} v hwf := ⟨_, rfl, s.readByte_writeByte_same a v hwf, (Change.writeByte s a v).effect⟩

theorem wordElement {a : Address} (heven : a.isEven = true) : ElementAt wordWidth a (State.wordAt · a) where
  load _ := (load_even heven).1
  read_congr hcfg hmem := by simp only [State.wordAt, State.readByte_congr hcfg hmem]
  store {s} v hwf :=
    ⟨_, s.writeWord_of_even a v (a.isEven_iff.1 heven), s.wordAt_putWord_same a v hwf, (Change.putWord s a v).effect⟩

/-! ### Single and repeating forms (R371) -/

section
variable (s : State) (done : Bool)

@[simp] theorem again_cfg : (again done s).cfg = s.cfg := by cases done <;> rfl
@[simp] theorem again_mem : (again done s).mem = s.mem := by cases done <;> rfl
@[simp] theorem again_fcw : (again done s).fcw = s.fcw := by cases done <;> rfl
@[simp] theorem again_events : (again done s).events = s.events := by cases done <;> rfl
@[simp] theorem again_portAnswers : (again done s).portAnswers = s.portAnswers := by cases done <;> rfl
@[simp] theorem again_reg (m : RegCode) : (again done s).reg m = s.reg m := by cases done <;> rfl
@[simp] theorem again_rb (c : RegCode) : (again done s).rb c = s.rb c := by cases done <;> rfl
@[simp] theorem again_addrReg (n : RegCode) : (again done s).addrReg n = s.addrReg n := by cases done <;> rfl

/-- A single form goes on, a repeating one goes on when it is done. -/
theorem again_pcOff (rep : Bool) : (again (!rep || done) s).pcOff = s.blockPc rep done := by
  cases rep <;> cases done <;> rfl

end

/-- What every iteration leaves: the count one less, P/V saying that it reached 0, and the PC as it was. -/
structure Counted (s u : State) (r : RegCode) : Prop where
  count : u.reg r = s.reg r - 1
  reachedZero : u.fcw.pv = true ↔ u.reg r = 0
  pcOff : u.pcOff = s.pcOff

theorem Counted.blockPc {s u : State} {r : RegCode} (c : Counted s u r) (rep done : Bool) : u.blockPc rep done = s.blockPc rep done := by
  rw [State.blockPc, State.blockPc, c.pcOff]

/-- The single form of a transfer, or the repeating one. -/
def transferForm : Bool → RegCode → Except Refusal State → Except Refusal State
  | false, _, x => x
  | true, r, x => untilZero r x

/-- The single form of a translate and test, or the repeating one. -/
def testForm : Bool → RegCode → Except Refusal State → Except Refusal State
  | false, _, x => x
  | true, r, x => untilNonzero r x

/-- The single form of a compare, or the repeating one. -/
def compareForm : Bool → RegCode → Except Refusal (Bool × State) → Except Refusal State
  | false, _, x => once x
  | true, r, x => untilFound r x

theorem transferForm_ok (rep : Bool) (r : RegCode) (u : State) :
    transferForm rep r (.ok u) = .ok (again (!rep || u.reg r == 0) u) := by
  cases rep <;> rfl

theorem testForm_ok (rep : Bool) (r : RegCode) (u : State) :
    testForm rep r (.ok u) = .ok (again (!rep || (!u.fcw.z || u.reg r == 0)) u) := by
  cases rep <;> rfl

theorem compareForm_ok (rep : Bool) (r : RegCode) (found : Bool) (u : State) :
    compareForm rep r (.ok (found, u)) = .ok (again (!rep || (found || u.reg r == 0)) u) := by
  cases rep <;> rfl

theorem transferForm_refused (rep : Bool) (r : RegCode) (e : Refusal) : finish (transferForm rep r (.error e)) = .refused e := by
  cases rep <;> rfl

theorem testForm_refused (rep : Bool) (r : RegCode) (e : Refusal) : finish (testForm rep r (.error e)) = .refused e := by
  cases rep <;> rfl

theorem compareForm_refused (rep : Bool) (r : RegCode) (e : Refusal) : finish (compareForm rep r (.error e)) = .refused e := by
  cases rep <;> rfl

end Sys2Proof.Machine
end

section
/-! SUPPORT. The block loads, the block compares and the translate instructions (spec/47_block_string.md R373 to R403). -/

namespace Sys2Proof.Machine

/-! ### Block loads -/

/-- The block loads of words: the instruction, the step of its addresses, and whether it repeats (R382 to R385). -/
def wordLoads : List ((RegCode → RegCode → RegCode → Instr) × Word × Bool) :=
  [(Instr.ldi, 2, false), (Instr.ldir, 2, true), (Instr.ldd, -2, false), (Instr.lddr, -2, true)]

/-- The block loads of bytes (R382 to R385). -/
def byteLoads : List ((RegCode → RegCode → RegCode → Instr) × Word × Bool) :=
  [(Instr.ldib, 1, false), (Instr.ldirb, 1, true), (Instr.lddb, -1, false), (Instr.lddrb, -1, true)]

section
variable {mk : RegCode → RegCode → RegCode → Instr} {delta : Word} {rep : Bool} {s : State} {d p r : RegCode}

theorem exec_wordLoads (h : (mk, delta, rep) ∈ wordLoads) :
    exec (mk d p r) s = finish (transferForm rep r (loadStep wordWidth delta d p r s)) := by
  generalize hrow : (mk, delta, rep) = row at h
  fin_cases h <;> cases hrow <;> rfl

theorem exec_byteLoads (h : (mk, delta, rep) ∈ byteLoads) :
    exec (mk d p r) s = finish (transferForm rep r (loadStep byteWidth delta d p r s)) := by
  generalize hrow : (mk, delta, rep) = row at h
  fin_cases h <;> cases hrow <;> rfl

end

section
variable {n : Nat} {w : Width n} {readA readB : State → BitVec n} {s : State} {d p r : RegCode} {a b : Address}

/-- LoadStep moves the element, steps both addresses and counts (R373). -/
theorem loadStep_moves (A : ElementAt w a readA) (B : ElementAt w b readB) (delta : Word) (hwf : s.mem.wf = true)
    (hregs : disjoint3 (s.addrRegs p) (s.addrRegs d) [r] = true) (ha : s.addrReg p = .ok a) (hb : s.addrReg d = .ok b) :
    ∃ u, loadStep w delta d p r s = .ok u ∧ readB u = readA s ∧ u.reg (s.offReg p) = a.off + delta ∧
      u.reg (s.offReg d) = b.off + delta ∧ Counted s u r := by
  obtain ⟨t, hstore, hread, e⟩ := B.store (readA s) hwf
  have hreg : ∀ m, t.reg m = s.reg m := fun m => Effect.reg (rs := []) e (by simp) (by simp)
  have hoff : t.offReg = s.offReg := e.offReg (by simp)
  have hpc : t.pcOff = s.pcOff := e.pcOff (by simp)
  obtain ⟨hpd, hpr, hdr⟩ := stepped_apart hregs
  refine ⟨blockFlags r (((t.autoStep p delta).autoStep d delta).countDown r), ?step, ?element, ?source, ?dest, ?counted⟩
  case step => simp only [loadStep, hregs, if_true, ha, hb, A.load, hstore, bind_of_ok]
  case element =>
    rw [← hread]
    exact B.read_congr rfl rfl
  case source => simp [State.reg_autoStep, State.reg_countDown, hoff, hreg, hpd, hpr, reg_offReg_of_addrReg ha]
  case dest => simp [State.reg_autoStep, State.reg_countDown, hoff, hreg, hpd.symm, hdr, reg_offReg_of_addrReg hb]
  case counted => exact ⟨by simp [State.reg_autoStep, State.reg_countDown, hoff, hreg, hpr.symm, hdr.symm], beq_iff_eq, hpc⟩

/-- A block load completes in either form (R371, R382 to R385). -/
theorem loadForm_next (A : ElementAt w a readA) (B : ElementAt w b readB) (delta : Word) (rep : Bool) (hwf : s.mem.wf = true)
    (hregs : disjoint3 (s.addrRegs p) (s.addrRegs d) [r] = true) (ha : s.addrReg p = .ok a) (hb : s.addrReg d = .ok b) :
    ∃ t, finish (transferForm rep r (loadStep w delta d p r s)) = .next t ∧ readB t = readA s ∧ t.reg (s.offReg p) = a.off + delta ∧
      t.reg (s.offReg d) = b.off + delta ∧ t.reg r = s.reg r - 1 ∧ (t.fcw.pv = true ↔ t.reg r = 0) ∧
      t.pcOff = s.blockPc rep (t.reg r == 0) := by
  obtain ⟨u, hstep, hread, hsource, hdest, c⟩ := loadStep_moves A B delta hwf hregs ha hb
  rw [hstep, transferForm_ok, finish_ok]
  refine ⟨_, rfl, (B.read_congr (again_cfg ..) (again_mem ..)).trans hread, ?_⟩
  simp only [again_reg, again_fcw, again_pcOff, c.blockPc]
  exact ⟨hsource, hdest, c.count, c.reachedZero, trivial⟩

end

/-- Settles O52: the forms are LoadStep at their width, once or repeated. -/
theorem blockLoadsMoveOneElement : Obligations.BlockLoadsMoveOneElement := by
  refine ⟨fun mk delta rep hmk s d p r a b hwf hregs ha hb hevenA hevenB => ?word, fun mk delta rep hmk s d p r a b hwf hregs ha hb => ?byte⟩
  case word =>
    rw [exec_wordLoads hmk]
    exact loadForm_next (wordElement hevenA) (wordElement hevenB) delta rep hwf hregs ha hb
  case byte =>
    rw [exec_byteLoads hmk]
    exact loadForm_next (byteElement a) (byteElement b) delta rep hwf hregs ha hb

/-! ### Block compares -/

/-- The compares of a register with a string of words: the instruction, the step of its address, and whether it repeats (R374 to R377). -/
def wordCompares : List ((RegCode → RegCode → RegCode → CondCode → Instr) × Word × Bool) :=
  [(Instr.cpi, 2, false), (Instr.cpir, 2, true), (Instr.cpd, -2, false), (Instr.cpdr, -2, true)]

/-- The compares of a register with a string of bytes (R374 to R377). -/
def byteCompares : List ((RegCode → RegCode → RegCode → CondCode → Instr) × Word × Bool) :=
  [(Instr.cpib, 1, false), (Instr.cpirb, 1, true), (Instr.cpdb, -1, false), (Instr.cpdrb, -1, true)]

/-- The compares of two strings of words (R378 to R381). -/
def wordStringCompares : List ((RegCode → RegCode → RegCode → CondCode → Instr) × Word × Bool) :=
  [(Instr.cpsi, 2, false), (Instr.cpsir, 2, true), (Instr.cpsd, -2, false), (Instr.cpsdr, -2, true)]

/-- The compares of two strings of bytes (R378 to R381). -/
def byteStringCompares : List ((RegCode → RegCode → RegCode → CondCode → Instr) × Word × Bool) :=
  [(Instr.cpsib, 1, false), (Instr.cpsirb, 1, true), (Instr.cpsdb, -1, false), (Instr.cpsdrb, -1, true)]

section
variable {mk : RegCode → RegCode → RegCode → CondCode → Instr} {delta : Word} {rep : Bool} {s : State} {d p r : RegCode} {cc : CondCode}

theorem exec_wordCompares (h : (mk, delta, rep) ∈ wordCompares) :
    exec (mk d p r cc) s = finish (compareForm rep r (compareString wordWidth [d] delta d p r cc s)) := by
  generalize hrow : (mk, delta, rep) = row at h
  fin_cases h <;> cases hrow <;> rfl

theorem exec_byteCompares (h : (mk, delta, rep) ∈ byteCompares) :
    exec (mk d p r cc) s = finish (compareForm rep r (compareString byteWidth [byteHome d] delta d p r cc s)) := by
  generalize hrow : (mk, delta, rep) = row at h
  fin_cases h <;> cases hrow <;> rfl

theorem exec_wordStringCompares (h : (mk, delta, rep) ∈ wordStringCompares) :
    exec (mk d p r cc) s = finish (compareForm rep r (compareStrings wordWidth delta d p r cc s)) := by
  generalize hrow : (mk, delta, rep) = row at h
  fin_cases h <;> cases hrow <;> rfl

theorem exec_byteStringCompares (h : (mk, delta, rep) ∈ byteStringCompares) :
    exec (mk d p r cc) s = finish (compareForm rep r (compareStrings byteWidth delta d p r cc s)) := by
  generalize hrow : (mk, delta, rep) = row at h
  fin_cases h <;> cases hrow <;> rfl

end

section
variable {n : Nat} {w : Width n} {readA readB : State → BitVec n} {s : State} {d p r : RegCode} {a b : Address}

/-- A compare of a register with an element steps the address and counts (R374, R376). -/
theorem compareString_compares {v : BitVec n} {regs : List RegCode} (A : ElementAt w a readA) (delta : Word) (cc : CondCode)
    (hregs : disjoint3 (s.addrRegs p) regs [r] = true) (ha : s.addrReg p = .ok a) (hget : w.get s d = .ok v) :
    ∃ u, compareString w regs delta d p r cc s = .ok (compareMatch v (readA s) cc, u) ∧ u.fcw.z = compareMatch v (readA s) cc ∧
      u.reg (s.offReg p) = a.off + delta ∧ Counted s u r := by
  have hpr := stepped_ne_count hregs
  refine ⟨(compareFlags (compareMatch v (readA s) cc) r (s.countDown r)).autoStep p delta, ?step, by simp, ?address, ?counted⟩
  case step => simp only [compareString, hregs, if_true, hget, ha, A.load, bind_of_ok]
  case address => simp [State.reg_autoStep, State.reg_countDown, hpr, reg_offReg_of_addrReg ha]
  case counted =>
    exact ⟨by simp [State.reg_autoStep, State.reg_countDown, hpr.symm], by simp [State.reg_autoStep, State.reg_countDown, hpr.symm], rfl⟩

/-- A compare of two elements steps both addresses and counts (R378, R380). -/
theorem compareStrings_compares (A : ElementAt w a readA) (B : ElementAt w b readB) (delta : Word) (cc : CondCode)
    (hregs : disjoint3 (s.addrRegs p) (s.addrRegs d) [r] = true) (ha : s.addrReg p = .ok a) (hb : s.addrReg d = .ok b) :
    ∃ u, compareStrings w delta d p r cc s = .ok (compareMatch (readB s) (readA s) cc, u) ∧
      u.fcw.z = compareMatch (readB s) (readA s) cc ∧ u.reg (s.offReg p) = a.off + delta ∧ u.reg (s.offReg d) = b.off + delta ∧
      Counted s u r := by
  obtain ⟨hpd, hpr, hdr⟩ := stepped_apart hregs
  refine ⟨((compareFlags (compareMatch (readB s) (readA s) cc) r (s.countDown r)).autoStep p delta).autoStep d delta, ?step, by simp,
    ?source, ?dest, ?counted⟩
  case step => simp only [compareStrings, hregs, if_true, ha, hb, A.load, B.load, bind_of_ok]
  case source => simp [State.reg_autoStep, State.reg_countDown, hpd, hpr, reg_offReg_of_addrReg ha]
  case dest => simp [State.reg_autoStep, State.reg_countDown, hpd.symm, hdr, reg_offReg_of_addrReg hb]
  case counted =>
    exact ⟨by simp [State.reg_autoStep, State.reg_countDown, hpr.symm, hdr.symm],
      by simp [State.reg_autoStep, State.reg_countDown, hpr.symm, hdr.symm], rfl⟩

/-- A compare of a register completes in either form (R371, R374 to R377). -/
theorem compareForm_next {v : BitVec n} {regs : List RegCode} (A : ElementAt w a readA) (delta : Word) (rep : Bool) (cc : CondCode)
    (hregs : disjoint3 (s.addrRegs p) regs [r] = true) (ha : s.addrReg p = .ok a) (hget : w.get s d = .ok v) :
    ∃ t, finish (compareForm rep r (compareString w regs delta d p r cc s)) = .next t ∧ t.fcw.z = compareMatch v (readA s) cc ∧
      t.reg (s.offReg p) = a.off + delta ∧ t.reg r = s.reg r - 1 ∧ (t.fcw.pv = true ↔ t.reg r = 0) ∧
      t.pcOff = s.blockPc rep (t.fcw.z || t.reg r == 0) := by
  obtain ⟨u, hstep, hz, haddress, c⟩ := compareString_compares A delta cc hregs ha hget
  rw [hstep, compareForm_ok, finish_ok]
  refine ⟨_, rfl, ?_⟩
  simp only [again_reg, again_fcw, again_pcOff, c.blockPc, hz]
  exact ⟨trivial, haddress, c.count, c.reachedZero, trivial⟩

/-- A compare of strings completes in either form (R371, R378 to R381). -/
theorem compareStringsForm_next (A : ElementAt w a readA) (B : ElementAt w b readB) (delta : Word) (rep : Bool) (cc : CondCode)
    (hregs : disjoint3 (s.addrRegs p) (s.addrRegs d) [r] = true) (ha : s.addrReg p = .ok a) (hb : s.addrReg d = .ok b) :
    ∃ t, finish (compareForm rep r (compareStrings w delta d p r cc s)) = .next t ∧ t.fcw.z = compareMatch (readB s) (readA s) cc ∧
      t.reg (s.offReg p) = a.off + delta ∧ t.reg (s.offReg d) = b.off + delta ∧ t.reg r = s.reg r - 1 ∧
      (t.fcw.pv = true ↔ t.reg r = 0) ∧ t.pcOff = s.blockPc rep (t.fcw.z || t.reg r == 0) := by
  obtain ⟨u, hstep, hz, hsource, hdest, c⟩ := compareStrings_compares A B delta cc hregs ha hb
  rw [hstep, compareForm_ok, finish_ok]
  refine ⟨_, rfl, ?_⟩
  simp only [again_reg, again_fcw, again_pcOff, c.blockPc, hz]
  exact ⟨trivial, hsource, hdest, c.count, c.reachedZero, trivial⟩

end

/-- Settles O53: the forms are CompareStep on a register or on two strings at their width, once or repeated. -/
theorem blockComparesCompareOneElement : Obligations.BlockComparesCompareOneElement := by
  refine ⟨fun mk delta rep hmk s d p r cc a hregs ha heven => ?word, fun mk delta rep hmk s d p r cc a hregs ha => ?byte,
    fun mk delta rep hmk s d p r cc a b hregs ha hb hevenA hevenB => ?words, fun mk delta rep hmk s d p r cc a b hregs ha hb => ?bytes⟩
  case word =>
    rw [exec_wordCompares hmk]
    exact compareForm_next (wordElement heven) delta rep cc hregs ha rfl
  case byte =>
    rw [exec_byteCompares hmk]
    exact compareForm_next (byteElement a) delta rep cc hregs ha rfl
  case words =>
    rw [exec_wordStringCompares hmk]
    exact compareStringsForm_next (wordElement hevenA) (wordElement hevenB) delta rep cc hregs ha hb
  case bytes =>
    rw [exec_byteStringCompares hmk]
    exact compareStringsForm_next (byteElement a) (byteElement b) delta rep cc hregs ha hb

/-! ### Translate -/

/-- The translate instructions: the instruction, the step of its string, and whether it repeats (R396 to R399). -/
def translates : List ((RegCode → RegCode → RegCode → Instr) × Word × Bool) :=
  [(Instr.trib, 1, false), (Instr.trirb, 1, true), (Instr.trdb, -1, false), (Instr.trdrb, -1, true)]

/-- The translate and test instructions (R400 to R403). -/
def translateTests : List ((RegCode → RegCode → RegCode → Instr) × Word × Bool) :=
  [(Instr.trtib, 1, false), (Instr.trtirb, 1, true), (Instr.trtdb, -1, false), (Instr.trtdrb, -1, true)]

section
variable {mk : RegCode → RegCode → RegCode → Instr} {delta : Word} {rep : Bool} {s : State} {d p r : RegCode}

theorem exec_translates (h : (mk, delta, rep) ∈ translates) :
    exec (mk d p r) s = finish (transferForm rep r (translateStep delta d p r s)) := by
  generalize hrow : (mk, delta, rep) = row at h
  fin_cases h <;> cases hrow <;> rfl

theorem exec_translateTests (h : (mk, delta, rep) ∈ translateTests) :
    exec (mk d p r) s = finish (testForm rep r (testStep delta d p r s)) := by
  generalize hrow : (mk, delta, rep) = row at h
  fin_cases h <;> cases hrow <;> rfl

end

section
variable {s : State} {d p r : RegCode} {a b : Address}

/-- The table entry is the byte at the sum of the table's offset and the byte that numbers it (R395). -/
theorem tableEntry_eq (hb : s.addrReg p = .ok b) (v : Byte) : s.tableEntry p v = .ok (s.readByte ⟨b.seg, b.off + (0#8 ++ v)⟩) := by
  rw [State.tableEntry, hb, bind_of_ok, BitVec.setWidth_eq_append (by decide : 8 ≤ 16)]
  rfl

theorem translateRegsOk_iff : translateRegsOk s d p r = true ↔
    disjoint3 (s.addrRegs d) (s.addrRegs p) [r] = true ∧ (s.segmented = false → d ≠ 1 ∧ p ≠ 1) := by
  unfold translateRegsOk
  cases s.segmented <;> simp

/-- TranslateStep replaces the byte of the string by its table entry, steps the string and counts (R395). -/
theorem translateStep_replaces {e : Byte} (delta : Word) (hwf : s.mem.wf = true) (hok : translateRegsOk s d p r = true)
    (ha : s.addrReg d = .ok a) (he : s.tableEntry p (s.readByte a) = .ok e) :
    ∃ u, translateStep delta d p r s = .ok u ∧ u.readByte a = e ∧ u.reg (s.offReg d) = a.off + delta ∧ u.addrReg p = s.addrReg p ∧
      Counted s u r := by
  obtain ⟨hregs, -⟩ := translateRegsOk_iff.1 hok
  have hdr := stepped_ne_count hregs
  have hstep : translateStep delta d p r s = .ok (blockFlags r (((s.writeByte a e).autoStep d delta).countDown r)) := by
    simp only [translateStep, hok, if_true, ha, he, bind_of_ok]
  refine ⟨_, hstep, s.readByte_writeByte_same a e hwf, ?string, ?table, ?counted⟩
  case string => simp [State.reg_autoStep, State.reg_countDown, hdr, reg_offReg_of_addrReg ha]
  case table =>
    exact (translateStep_effect hstep).addrReg (by simp) (by simp) (by simp) (second_address_apart hregs)
  case counted => exact ⟨by simp [State.reg_autoStep, State.reg_countDown, hdr.symm], beq_iff_eq, rfl⟩

/-- The registers of a translate and test do not overlap and none of them is R1 (R395). -/
theorem testRegsOk_iff : (translateRegsOk s d p r && !overlap [1] (s.addrRegs d ++ s.addrRegs p ++ [r])) = true ↔
    disjoint3 (s.addrRegs d) (s.addrRegs p) [r] = true ∧ 1 ∉ s.addrRegs d ∧ 1 ∉ s.addrRegs p ∧ r ≠ 1 := by
  have hother : overlap [1] (s.addrRegs d ++ s.addrRegs p ++ [r]) = false ↔ 1 ∉ s.addrRegs d ∧ 1 ∉ s.addrRegs p ∧ r ≠ 1 := by
    simp only [overlap_eq_false_iff, List.mem_append, List.mem_singleton, forall_eq, not_or, and_assoc, ne_comm (a := r),
      ne_eq]
  have hnonsegmented : 1 ∉ s.addrRegs d ∧ 1 ∉ s.addrRegs p ∧ r ≠ 1 → s.segmented = false → d ≠ 1 ∧ p ≠ 1 := by
    rintro ⟨hd, hp, -⟩ hseg
    rw [(offReg_nonsegmented hseg).2] at hd hp
    exact ⟨(List.ne_of_not_mem_cons hd).symm, (List.ne_of_not_mem_cons hp).symm⟩
  rw [Bool.and_eq_true, translateRegsOk_iff, Bool.not_eq_true', hother, and_assoc]
  exact and_congr_right fun _ => and_iff_right_of_imp hnonsegmented

/-- TestStep leaves the table entry in RH1, steps the string and counts (R395). -/
theorem testStep_looksUp {e : Byte} (delta : Word) (hregs : disjoint3 (s.addrRegs d) (s.addrRegs p) [r] = true)
    (hd : 1 ∉ s.addrRegs d) (hp : 1 ∉ s.addrRegs p) (hr : r ≠ 1) (ha : s.addrReg d = .ok a)
    (he : s.tableEntry p (s.readByte a) = .ok e) :
    ∃ u, testStep delta d p r s = .ok u ∧ u.rb 1 = e ∧ u.fcw.z = (e == 0) ∧ u.reg (s.offReg d) = a.off + delta ∧
      u.addrReg p = s.addrReg p ∧ u.mem = s.mem ∧ Counted s u r := by
  have hdr := stepped_ne_count hregs
  have hd1 : s.offReg d ≠ 1 := fun heq => hd (heq ▸ s.offReg_mem_addrRegs d)
  have hstep : testStep delta d p r s = .ok (compareFlags (e == 0) r (((s.setRb 1 e).autoStep d delta).countDown r)) := by
    simp only [testStep, testRegsOk_iff.2 ⟨hregs, hd, hp, hr⟩, if_true, ha, he, bind_of_ok]
  have hother : ∀ m, m ≠ 1 → (s.setRb 1 e).reg m = s.reg m := fun m hm => s.reg_setReg_ne _ (Ne.symm hm)
  have heffect : Effect s _ (bothHalves ([s.offReg d, r, 1].map s.phys)) [.c, .z, .s, .pv] [] :=
    (testStep_effect hstep).mono (by simp [bothHalves, byteHalves, byteHome])
  refine ⟨_, hstep, ?entry, by simp, ?string, ?table, rfl, ?counted⟩
  case entry =>
    have hkept : (compareFlags (e == 0) r (((s.setRb 1 e).autoStep d delta).countDown r)).reg 1 = (s.setRb 1 e).reg 1 := by
      simp only [compareFlags_reg, State.reg_countDown, State.reg_autoStep, State.offReg_setRb, hd1.symm, hr.symm, if_false]
    exact (congrArg (byteOf 1) hkept).trans (s.rb_setRb_same 1 e)
  case string =>
    simp only [compareFlags_reg, State.reg_countDown, State.reg_autoStep, State.offReg_setRb, hdr, if_false, if_true, hother _ hd1,
      reg_offReg_of_addrReg ha]
  case table =>
    refine heffect.addrReg (by simp) (by simp) (by simp) fun m hm => ?_
    have hm1 : m ∉ [1] := fun hmem => hp (List.mem_singleton.1 hmem ▸ hm)
    exact List.not_mem_append (second_address_apart hregs m hm) hm1
  case counted =>
    refine ⟨?_, beq_iff_eq, rfl⟩
    simp only [compareFlags_reg, State.reg_countDown, State.reg_autoStep, State.offReg_setRb, hdr.symm, if_false, if_true, hother _ hr]

end

/-- Settles O54: the forms are TranslateStep or TestStep, once or repeated, with the table's byte as the entry. -/
theorem translatesUseTheTable : Obligations.TranslatesUseTheTable := by
  refine ⟨fun mk delta rep hmk s d p r a b hwf hregs hnot1 ha hb => ?translate,
    fun mk delta rep hmk s d p r a b hregs hd hp hr ha hb => ?test⟩
  case translate =>
    obtain ⟨u, hstep, hbyte, hstring, htable, c⟩ :=
      translateStep_replaces delta hwf (translateRegsOk_iff.2 ⟨hregs, hnot1⟩) ha (tableEntry_eq hb _)
    rw [exec_translates hmk, hstep, transferForm_ok, finish_ok]
    refine ⟨_, rfl, (State.readByte_congr (again_cfg ..) (again_mem ..) a).trans hbyte, ?_⟩
    simp only [again_reg, again_fcw, again_addrReg, again_pcOff, c.blockPc]
    exact ⟨hstring, htable, c.count, c.reachedZero, trivial⟩
  case test =>
    obtain ⟨u, hstep, hentry, hz, hstring, htable, hmem, c⟩ := testStep_looksUp delta hregs hd hp hr ha (tableEntry_eq hb _)
    rw [exec_translateTests hmk, hstep, testForm_ok, finish_ok]
    refine ⟨_, rfl, ?_⟩
    simp only [again_reg, again_rb, again_fcw, again_mem, again_addrReg, again_pcOff, c.blockPc, hz, hentry]
    exact ⟨trivial, beq_iff_eq, hstring, htable, hmem, c.count, c.reachedZero, rfl⟩

end Sys2Proof.Machine
end

section
/-! SUPPORT. The block inputs and outputs (spec/48_input_output.md R420 to R428). -/

namespace Sys2Proof.Machine

/-! ### The instructions -/

/-- The block inputs of words: the instruction, its I/O space, the step of its address, and whether it repeats (R421, R422, R425, R426). -/
def wordInputs : List ((RegCode → RegCode → RegCode → Instr) × IoSpace × Word × Bool) :=
  [(Instr.ini, IoSpace.io, 2, false), (Instr.inir, IoSpace.io, 2, true), (Instr.ind, IoSpace.io, -2, false),
    (Instr.indr, IoSpace.io, -2, true), (Instr.sini, IoSpace.sio, 2, false), (Instr.sinir, IoSpace.sio, 2, true),
    (Instr.sind, IoSpace.sio, -2, false), (Instr.sindr, IoSpace.sio, -2, true)]

/-- The block inputs of bytes (R421, R422, R425, R426). -/
def byteInputs : List ((RegCode → RegCode → RegCode → Instr) × IoSpace × Word × Bool) :=
  [(Instr.inib, IoSpace.io, 1, false), (Instr.inirb, IoSpace.io, 1, true), (Instr.indb, IoSpace.io, -1, false),
    (Instr.indrb, IoSpace.io, -1, true), (Instr.sinib, IoSpace.sio, 1, false), (Instr.sinirb, IoSpace.sio, 1, true),
    (Instr.sindb, IoSpace.sio, -1, false), (Instr.sindrb, IoSpace.sio, -1, true)]

/-- The block outputs of words (R423, R424, R427, R428). -/
def wordOutputs : List ((RegCode → RegCode → RegCode → Instr) × IoSpace × Word × Bool) :=
  [(Instr.outi, IoSpace.io, 2, false), (Instr.otir, IoSpace.io, 2, true), (Instr.outd, IoSpace.io, -2, false),
    (Instr.otdr, IoSpace.io, -2, true), (Instr.souti, IoSpace.sio, 2, false), (Instr.sotir, IoSpace.sio, 2, true),
    (Instr.soutd, IoSpace.sio, -2, false), (Instr.sotdr, IoSpace.sio, -2, true)]

/-- The block outputs of bytes (R423, R424, R427, R428). -/
def byteOutputs : List ((RegCode → RegCode → RegCode → Instr) × IoSpace × Word × Bool) :=
  [(Instr.outib, IoSpace.io, 1, false), (Instr.otirb, IoSpace.io, 1, true), (Instr.outdb, IoSpace.io, -1, false),
    (Instr.otdrb, IoSpace.io, -1, true), (Instr.soutib, IoSpace.sio, 1, false), (Instr.sotirb, IoSpace.sio, 1, true),
    (Instr.soutdb, IoSpace.sio, -1, false), (Instr.sotdrb, IoSpace.sio, -1, true)]

section
variable {mk : RegCode → RegCode → RegCode → Instr} {space : IoSpace} {delta : Word} {rep : Bool} {s : State} {d p r : RegCode}

theorem exec_wordInputs (h : (mk, space, delta, rep) ∈ wordInputs) (hs : s.fcw.sn = true) : exec (mk d p r) s =
    finish (transferForm rep r (inputStep wordWidth (.askWord space) cutWord delta d p r s)) := by
  generalize hrow : (mk, space, delta, rep) = row at h
  fin_cases h <;> cases hrow <;> exact congrArg finish (if_pos hs)

theorem exec_byteInputs (h : (mk, space, delta, rep) ∈ byteInputs) (hs : s.fcw.sn = true) : exec (mk d p r) s =
    finish (transferForm rep r (inputStep byteWidth (.askByte space) cutByte delta d p r s)) := by
  generalize hrow : (mk, space, delta, rep) = row at h
  fin_cases h <;> cases hrow <;> exact congrArg finish (if_pos hs)

theorem exec_wordOutputs (h : (mk, space, delta, rep) ∈ wordOutputs) (hs : s.fcw.sn = true) : exec (mk d p r) s =
    finish (transferForm rep r (outputStep wordWidth (.portWord space) delta d p r s)) := by
  generalize hrow : (mk, space, delta, rep) = row at h
  fin_cases h <;> cases hrow <;> exact congrArg finish (if_pos hs)

theorem exec_byteOutputs (h : (mk, space, delta, rep) ∈ byteOutputs) (hs : s.fcw.sn = true) : exec (mk d p r) s =
    finish (transferForm rep r (outputStep byteWidth (.portByte space) delta d p r s)) := by
  generalize hrow : (mk, space, delta, rep) = row at h
  fin_cases h <;> cases hrow <;> exact congrArg finish (if_pos hs)

end

/-! ### The shared operations -/

theorem State.portRead_events (s : State) (e : OutEvent) : (s.portRead e).events = s.events ++ [e] :=
  congrArg (· ++ [e]) ((Effect.portTaken s).events (by simp))

theorem State.portRead_mem (s : State) (e : OutEvent) : (s.portRead e).mem = s.mem := by
  unfold State.portRead State.portTaken
  split <;> rfl

/-- An answer supplied from outside is the value read, and is taken from the list (log 9). -/
theorem port_answered {s : State} {v : Word} {vs : List Word} (h : s.portAnswers = v :: vs) (e : OutEvent) :
    s.portValue = v ∧ (s.portRead e).portAnswers = vs := by
  simp only [State.portValue, State.portRead, State.portTaken, h, State.emit_portAnswers, and_self]

section
variable {n : Nat} {w : Width n} {read : State → BitVec n} {s : State} {d p r : RegCode} {a : Address}

/-- InStep asks the port, stores the answer, steps the address and counts (R420). -/
theorem inputStep_stores_answer (A : ElementAt w a read) (ev : Word → OutEvent) (cut : Word → BitVec n) (delta : Word)
    (hwf : s.mem.wf = true) (hregs : disjoint3 (s.addrRegs d) [p] [r] = true) (ha : s.addrReg d = .ok a) :
    ∃ u, inputStep w ev cut delta d p r s = .ok u ∧ u.events = s.events ++ [ev (s.reg p)] ∧
      (∀ v vs, s.portAnswers = v :: vs → read u = cut v ∧ u.portAnswers = vs) ∧ u.reg (s.offReg d) = a.off + delta ∧
      u.reg p = s.reg p ∧ Counted s u r := by
  obtain ⟨t, hstore, hread, e⟩ := A.store (s := s.portRead (ev (s.reg p))) (cut s.portValue) (by rw [State.portRead_mem, hwf])
  have port := (Effect.portRead s (ev (s.reg p))).trans e
  have hreg : ∀ m, t.reg m = s.reg m := fun m => Effect.reg (rs := []) port (by simp) (by simp)
  have hoff : t.offReg = s.offReg := port.offReg (by simp)
  have hpc : t.pcOff = s.pcOff := port.pcOff (by simp)
  have hdr := stepped_ne_count hregs
  have hstep : inputStep w ev cut delta d p r s = .ok (blockFlags r ((t.autoStep d delta).countDown r)) := by
    simp only [inputStep, hregs, if_true, ha, hstore, bind_of_ok]
  refine ⟨_, hstep, ?event, fun v vs hv => ⟨?element, ?answers⟩, ?address, ?port, ?counted⟩
  case event => exact (e.events (by simp)).trans (s.portRead_events _)
  case element =>
    rw [← (port_answered hv (ev (s.reg p))).1, ← hread]
    exact A.read_congr rfl rfl
  case answers => exact (e.portAnswers (by simp)).trans (port_answered hv _).2
  case address => simp [State.reg_autoStep, State.reg_countDown, hoff, hreg, hdr, reg_offReg_of_addrReg ha]
  case port =>
    obtain ⟨hpd, hpr⟩ : p ≠ s.offReg d ∧ p ≠ r := by simpa using beside_not_stepped hregs
    simp [State.reg_autoStep, State.reg_countDown, hoff, hreg, hpd, hpr]
  case counted => exact ⟨by simp [State.reg_autoStep, State.reg_countDown, hoff, hreg, hdr.symm], beq_iff_eq, hpc⟩

/-- OutStep records the element, steps the address and counts (R420). -/
theorem outputStep_emits (A : ElementAt w a read) (ev : Word → BitVec n → OutEvent) (delta : Word)
    (hregs : disjoint3 (s.addrRegs p) [d] [r] = true) (ha : s.addrReg p = .ok a) :
    ∃ u, outputStep w ev delta d p r s = .ok u ∧ u.events = s.events ++ [ev (s.reg d) (read s)] ∧
      u.reg (s.offReg p) = a.off + delta ∧ u.reg d = s.reg d ∧ Counted s u r := by
  have hpr := stepped_ne_count hregs
  have hstep : outputStep w ev delta d p r s =
      .ok (blockFlags r (((s.emit (ev (s.reg d) (read s))).autoStep p delta).countDown r)) := by
    simp only [outputStep, hregs, if_true, ha, A.load, bind_of_ok]
  refine ⟨_, hstep, rfl, ?address, (outputStep_effect hstep).reg (by simp) (beside_not_stepped hregs), ?counted⟩
  case address => simp [State.reg_autoStep, State.reg_countDown, hpr, reg_offReg_of_addrReg ha]
  case counted => exact ⟨by simp [State.reg_autoStep, State.reg_countDown, hpr.symm], beq_iff_eq, rfl⟩

/-- A block input completes in either form (R371, R421, R422, R425, R426). -/
theorem inputForm_next (A : ElementAt w a read) (ev : Word → OutEvent) (cut : Word → BitVec n) (delta : Word) (rep : Bool)
    (hwf : s.mem.wf = true) (hregs : disjoint3 (s.addrRegs d) [p] [r] = true) (ha : s.addrReg d = .ok a) :
    ∃ t, finish (transferForm rep r (inputStep w ev cut delta d p r s)) = .next t ∧ t.events = s.events ++ [ev (s.reg p)] ∧
      (∀ v vs, s.portAnswers = v :: vs → read t = cut v ∧ t.portAnswers = vs) ∧ t.reg (s.offReg d) = a.off + delta ∧
      t.reg p = s.reg p ∧ t.reg r = s.reg r - 1 ∧ (t.fcw.pv = true ↔ t.reg r = 0) ∧ t.pcOff = s.blockPc rep (t.reg r == 0) := by
  obtain ⟨u, hstep, hevent, hanswer, haddress, hport, c⟩ := inputStep_stores_answer A ev cut delta hwf hregs ha
  rw [hstep, transferForm_ok, finish_ok]
  refine ⟨_, rfl, ?_⟩
  simp only [A.read_congr (again_cfg ..) (again_mem ..), again_events, again_portAnswers, again_reg, again_fcw, again_pcOff, c.blockPc]
  exact ⟨hevent, hanswer, haddress, hport, c.count, c.reachedZero, trivial⟩

/-- A block output completes in either form (R371, R423, R424, R427, R428). -/
theorem outputForm_next (A : ElementAt w a read) (ev : Word → BitVec n → OutEvent) (delta : Word) (rep : Bool)
    (hregs : disjoint3 (s.addrRegs p) [d] [r] = true) (ha : s.addrReg p = .ok a) :
    ∃ t, finish (transferForm rep r (outputStep w ev delta d p r s)) = .next t ∧ t.events = s.events ++ [ev (s.reg d) (read s)] ∧
      t.reg (s.offReg p) = a.off + delta ∧ t.reg d = s.reg d ∧ t.reg r = s.reg r - 1 ∧ (t.fcw.pv = true ↔ t.reg r = 0) ∧
      t.pcOff = s.blockPc rep (t.reg r == 0) := by
  obtain ⟨u, hstep, hevent, haddress, hport, c⟩ := outputStep_emits A ev delta hregs ha
  rw [hstep, transferForm_ok, finish_ok]
  refine ⟨_, rfl, ?_⟩
  simp only [again_events, again_reg, again_fcw, again_pcOff, c.blockPc]
  exact ⟨hevent, haddress, hport, c.count, c.reachedZero, trivial⟩

end

/-! ### O57 -/

/-- Settles O57: in system mode the forms are InStep or OutStep at their width and in their I/O space, once or repeated. -/
theorem blockInputAndOutput : Obligations.BlockInputAndOutput := by
  refine ⟨fun mk space delta rep hmk s d p r a hs hwf hregs ha heven => ?wordInput,
    fun mk space delta rep hmk s d p r a hs hwf hregs ha => ?byteInput,
    fun mk space delta rep hmk s d p r a hs hregs ha heven => ?wordOutput,
    fun mk space delta rep hmk s d p r a hs hregs ha => ?byteOutput⟩
  case wordInput =>
    rw [exec_wordInputs hmk hs]
    exact inputForm_next (wordElement heven) (.askWord space) cutWord delta rep hwf hregs ha
  case byteInput =>
    rw [exec_byteInputs hmk hs]
    exact inputForm_next (byteElement a) (.askByte space) cutByte delta rep hwf hregs ha
  case wordOutput =>
    rw [exec_wordOutputs hmk hs]
    exact outputForm_next (wordElement heven) (.portWord space) delta rep hregs ha
  case byteOutput =>
    rw [exec_byteOutputs hmk hs]
    exact outputForm_next (byteElement a) (.portByte space) delta rep hregs ha

end Sys2Proof.Machine
end

section
/-! SUPPORT. Where the block instructions stop: their registers overlap (spec/47_block_string.md R372, R395; spec/48_input_output.md
R420; log 36). -/

namespace Sys2Proof.Machine

/-! ### The shared operations -/

section
variable {n : Nat} (w : Width n) {s : State} {d p r : RegCode} (delta : Word) (cc : CondCode)

theorem loadStep_refused (h : disjoint3 (s.addrRegs p) (s.addrRegs d) [r] = false) :
    loadStep w delta d p r s = .error .blockRegisterOverlap :=
  if_neg (Bool.eq_false_iff.1 h)

theorem compareString_refused {regs : List RegCode} (h : disjoint3 (s.addrRegs p) regs [r] = false) :
    compareString w regs delta d p r cc s = .error .blockRegisterOverlap :=
  if_neg (Bool.eq_false_iff.1 h)

theorem compareStrings_refused (h : disjoint3 (s.addrRegs p) (s.addrRegs d) [r] = false) :
    compareStrings w delta d p r cc s = .error .blockRegisterOverlap :=
  if_neg (Bool.eq_false_iff.1 h)

theorem inputStep_refused (ev : Word → OutEvent) (cut : Word → BitVec n) (h : disjoint3 (s.addrRegs d) [p] [r] = false) :
    inputStep w ev cut delta d p r s = .error .blockRegisterOverlap :=
  if_neg (Bool.eq_false_iff.1 h)

theorem outputStep_refused (ev : Word → BitVec n → OutEvent) (h : disjoint3 (s.addrRegs p) [d] [r] = false) :
    outputStep w ev delta d p r s = .error .blockRegisterOverlap :=
  if_neg (Bool.eq_false_iff.1 h)

theorem translateStep_refused (h : translateRegsOk s d p r = false) : translateStep delta d p r s = .error .blockRegisterOverlap :=
  if_neg (Bool.eq_false_iff.1 h)

theorem testStep_refused (h : ¬(disjoint3 (s.addrRegs d) (s.addrRegs p) [r] = true ∧ 1 ∉ s.addrRegs d ∧ 1 ∉ s.addrRegs p ∧ r ≠ 1)) :
    testStep delta d p r s = .error .blockRegisterOverlap :=
  if_neg fun hok => h (testRegsOk_iff.1 hok)

end

/-! ### O55 -/

/-- The translate instructions, those with a test too, stop where TranslateStep does. -/
theorem exec_translates_refused {s : State} {d p r : RegCode} {row : (RegCode → RegCode → RegCode → Instr) × Word × Bool}
    (hx : row ∈ translates ++ translateTests) (h : translateRegsOk s d p r = false) : exec (row.1 d p r) s = .refused .blockRegisterOverlap := by
  rcases List.mem_append.1 hx with hx | hx
  · rw [exec_translates hx, translateStep_refused _ h, transferForm_refused]
  · have htest : ¬(disjoint3 (s.addrRegs d) (s.addrRegs p) [r] = true ∧ 1 ∉ s.addrRegs d ∧ 1 ∉ s.addrRegs p ∧ r ≠ 1) :=
      fun hok => Bool.eq_false_iff.1 h (Bool.and_eq_true_iff.1 (testRegsOk_iff.2 hok)).1
    rw [exec_translateTests hx, testStep_refused _ htest, testForm_refused]

/-- Settles O55: every instruction of a family is a form of a shared operation whose check of the registers fails. -/
theorem blockOverlapStops : Obligations.BlockOverlapStops := by
  refine ⟨disjoint3_iff, fun s d p r cc h => ⟨fun mk hmk => ?load, fun mk hmk => ?compareStrings⟩, fun s d p r cc h mk hmk => ?compare,
    fun s d p r cc h mk hmk => ?compareByte, fun s d p r h mk hmk => ?translate, fun s d p r hseg h1 mk hmk => ?translateR1,
    fun s d p r h1 mk hmk => ?testR1, fun s d p r hs h mk hmk => ?input, fun s d p r hs h mk hmk => ?output⟩
  case load =>
    obtain ⟨row, hx, rfl⟩ := List.mem_map.1 (show mk ∈ (wordLoads ++ byteLoads).map Prod.fst from hmk)
    rcases List.mem_append.1 hx with hx | hx
    · rw [exec_wordLoads hx, loadStep_refused _ _ h, transferForm_refused]
    · rw [exec_byteLoads hx, loadStep_refused _ _ h, transferForm_refused]
  case compareStrings =>
    obtain ⟨row, hx, rfl⟩ := List.mem_map.1 (show mk ∈ (wordStringCompares ++ byteStringCompares).map Prod.fst from hmk)
    rcases List.mem_append.1 hx with hx | hx
    · rw [exec_wordStringCompares hx, compareStrings_refused _ _ _ h, compareForm_refused]
    · rw [exec_byteStringCompares hx, compareStrings_refused _ _ _ h, compareForm_refused]
  case compare =>
    obtain ⟨row, hx, rfl⟩ := List.mem_map.1 (show mk ∈ wordCompares.map Prod.fst from hmk)
    rw [exec_wordCompares hx, compareString_refused _ _ _ h, compareForm_refused]
  case compareByte =>
    obtain ⟨row, hx, rfl⟩ := List.mem_map.1 (show mk ∈ byteCompares.map Prod.fst from hmk)
    rw [exec_byteCompares hx, compareString_refused _ _ _ h, compareForm_refused]
  case translate =>
    obtain ⟨row, hx, rfl⟩ := List.mem_map.1 (show mk ∈ (translates ++ translateTests).map Prod.fst from hmk)
    exact exec_translates_refused hx (by rw [translateRegsOk, h, Bool.false_and])
  case translateR1 =>
    obtain ⟨row, hx, rfl⟩ := List.mem_map.1 (show mk ∈ (translates ++ translateTests).map Prod.fst from hmk)
    refine exec_translates_refused hx (Bool.eq_false_iff.2 fun hok => ?_)
    obtain ⟨hd, hp⟩ := (translateRegsOk_iff.1 hok).2 hseg
    exact h1.elim hd hp
  case testR1 =>
    obtain ⟨row, hx, rfl⟩ := List.mem_map.1 (show mk ∈ translateTests.map Prod.fst from hmk)
    rw [exec_translateTests hx, testStep_refused, testForm_refused]
    rintro ⟨-, hd, hp, hr⟩
    exact h1.elim hd fun h1 => h1.elim hp hr
  case input =>
    have hrows : mk ∈ (wordInputs ++ byteInputs).map Prod.fst := by
      revert mk
      simp [wordInputs, byteInputs]
    obtain ⟨row, hx, rfl⟩ := List.mem_map.1 hrows
    rcases List.mem_append.1 hx with hx | hx
    · rw [exec_wordInputs hx hs, inputStep_refused _ _ _ _ h, transferForm_refused]
    · rw [exec_byteInputs hx hs, inputStep_refused _ _ _ _ h, transferForm_refused]
  case output =>
    have hrows : mk ∈ (wordOutputs ++ byteOutputs).map Prod.fst := by
      revert mk
      simp [wordOutputs, byteOutputs]
    obtain ⟨row, hx, rfl⟩ := List.mem_map.1 hrows
    rcases List.mem_append.1 hx with hx | hx
    · rw [exec_wordOutputs hx hs, outputStep_refused _ _ _ h, transferForm_refused]
    · rw [exec_byteOutputs hx hs, outputStep_refused _ _ _ h, transferForm_refused]

end Sys2Proof.Machine
end

section
/-! SUPPORT. The single inputs and outputs (spec/48_input_output.md R413 to R418). -/

namespace Sys2Proof.Machine

/-! ### The instructions -/

section
variable (s : State) (d p r : RegCode) (q : Word)

/-- The inputs of a word into register d: the instruction, its I/O space, and its port, in register p or in the instruction (R413, R414,
R417). -/
def singleWordInputs : List (Instr × IoSpace × Word) := [(.inReg d p, .io, s.reg p), (.inPort d q, .io, q), (.sin d q, .sio, q)]

/-- The inputs of a byte into register d (R413, R414, R417). -/
def singleByteInputs : List (Instr × IoSpace × Word) := [(.inbReg d p, .io, s.reg p), (.inbPort d q, .io, q), (.sinb d q, .sio, q)]

/-- The outputs of word register r: the instruction, its I/O space, and its port, in register d or in the instruction (R415, R416,
R418). -/
def singleWordOutputs : List (Instr × IoSpace × Word) := [(.outReg d r, .io, s.reg d), (.outPort q r, .io, q), (.sout q r, .sio, q)]

/-- The outputs of byte register r (R415, R416, R418). -/
def singleByteOutputs : List (Instr × IoSpace × Word) := [(.outbReg d r, .io, s.reg d), (.outbPort q r, .io, q), (.soutb q r, .sio, q)]

end

section
variable {s : State} {d p r : RegCode} {q : Word} {i : Instr} {space : IoSpace} {port : Word}

theorem exec_singleWordInputs (h : (i, space, port) ∈ singleWordInputs s d p q) (hs : s.fcw.sn = true) :
    exec i s = finish (inputReg wordWidth (.askWord space port) cutWord d s) := by
  generalize hrow : (i, space, port) = row at h
  fin_cases h <;> cases hrow <;> exact congrArg finish (if_pos hs)

theorem exec_singleByteInputs (h : (i, space, port) ∈ singleByteInputs s d p q) (hs : s.fcw.sn = true) :
    exec i s = finish (inputReg byteWidth (.askByte space port) cutByte d s) := by
  generalize hrow : (i, space, port) = row at h
  fin_cases h <;> cases hrow <;> exact congrArg finish (if_pos hs)

theorem exec_singleWordOutputs (h : (i, space, port) ∈ singleWordOutputs s d r q) (hs : s.fcw.sn = true) :
    exec i s = finish (outputReg wordWidth (.portWord space port) r s) := by
  generalize hrow : (i, space, port) = row at h
  fin_cases h <;> cases hrow <;> exact congrArg finish (if_pos hs)

theorem exec_singleByteOutputs (h : (i, space, port) ∈ singleByteOutputs s d r q) (hs : s.fcw.sn = true) :
    exec i s = finish (outputReg byteWidth (.portByte space port) r s) := by
  generalize hrow : (i, space, port) = row at h
  fin_cases h <;> cases hrow <;> exact congrArg finish (if_pos hs)

end

/-! ### The shared operations -/

section
variable {n : Nat} {w : Width n} {read : State → BitVec n} {s : State}

/-- IORead into a register asks the port once and leaves the answer in the register (R413, R414, R417). -/
theorem inputReg_next (W : WidthOperand w) {d : RegCode} (hget : ∀ u, w.get u d = .ok (read u)) (ev : OutEvent) (cut : Word → BitVec n) :
    ∃ t, finish (inputReg w ev cut d s) = .next t ∧ t.events = s.events ++ [ev] ∧
      ∀ v vs, s.portAnswers = v :: vs → read t = cut v ∧ t.portAnswers = vs := by
  obtain ⟨t, hset, hback⟩ := W.back.set_get (cut s.portValue) (hget (s.portRead ev))
  obtain ⟨_, E⟩ := W.effect
  have write := E.set_ok hset
  have hread : read t = cut s.portValue := Except.ok.inj ((hget t).symm.trans hback)
  refine ⟨t, finish_next.2 hset, (write.events (by simp)).trans (s.portRead_events ev), fun v vs hv => ?_⟩
  obtain ⟨hvalue, hrest⟩ := port_answered hv ev
  exact ⟨hread.trans (congrArg cut hvalue), (write.portAnswers (by simp)).trans hrest⟩

/-- IOWrite of a register records one event, with the register's value (R415, R416, R418). -/
theorem outputReg_next {r : RegCode} (hget : w.get s r = .ok (read s)) (ev : BitVec n → OutEvent) :
    ∃ t, finish (outputReg w ev r s) = .next t ∧ t.events = s.events ++ [ev (read s)] :=
  ⟨s.emit (ev (read s)), by simp only [outputReg, hget, bind_of_ok, finish_ok], rfl⟩

end

/-! ### O56 -/

/-- Settles O56: in system mode each form is IORead into its register or IOWrite of it, at its width and in its I/O space. -/
theorem singleInputAndOutput : Obligations.SingleInputAndOutput := by
  refine ⟨fun s d p q i space port hs hi => ?wordInput, fun s d p q i space port hs hi => ?byteInput,
    fun s d r q i space port hs hi => ?wordOutput, fun s d r q i space port hs hi => ?byteOutput⟩
  case wordInput =>
    rw [exec_singleWordInputs hi hs]
    exact inputReg_next (read := (State.reg · d)) wordOperand (fun _ => rfl) (.askWord space port) cutWord
  case byteInput =>
    rw [exec_singleByteInputs hi hs]
    exact inputReg_next (read := (State.rb · d)) byteOperand (fun _ => rfl) (.askByte space port) cutByte
  case wordOutput =>
    rw [exec_singleWordOutputs hi hs]
    exact outputReg_next (read := (State.reg · r)) rfl (.portWord space port)
  case byteOutput =>
    rw [exec_singleByteOutputs hi hs]
    exact outputReg_next (read := (State.rb · r)) rfl (.portByte space port)

end Sys2Proof.Machine
end

section
/-! SUPPORT. The FCW and its flag byte as words (spec/49_cpu_control.md R440): what a load takes from each bit and when it is refused. -/

namespace Sys2Proof.Machine

/-! ### Reserved bits (R58) -/

/-- A field is 0 when each of its bits is. -/
theorem extractLsb'_eq_zero_iff {n : Nat} (v : BitVec n) (i k : Nat) :
    v.extractLsb' i k = 0 ↔ ∀ j, j < k → v.getLsbD (i + j) = false := by
  constructor
  · intro h j hj
    have hbit := congrArg (BitVec.getLsbD · j) h
    simpa [hj] using hbit
  · intro h
    apply BitVec.eq_of_getLsbD_eq
    intro j hj
    simp [hj, h j hj]

theorem flagsReservedClear_iff (b : Byte) : flagsReservedClear b = true ↔ b.extractLsb' 0 2 = 0 := by
  rw [extractLsb'_eq_zero_iff]
  simp only [Nat.forall_lt_succ_right, flagsReservedClear, Bool.and_eq_true, Bool.not_eq_true']
  simp [and_comm]

theorem fcwReservedClear_iff (w : Word) : fcwReservedClear w = true ↔ w.extractLsb' 8 3 = 0 ∧ w.extractLsb' 0 2 = 0 := by
  have hflags : (loByte w).extractLsb' 0 2 = w.extractLsb' 0 2 := extractLsb'_of_extractLsb' w 0 8 0 2 (by decide)
  have hcontrol : w.extractLsb' 8 3 = 0 ↔ (w.getLsbD 10 = false ∧ w.getLsbD 9 = false) ∧ w.getLsbD 8 = false := by
    rw [extractLsb'_eq_zero_iff]
    simp only [Nat.forall_lt_succ_right]
    simp [and_comm, and_assoc]
  rw [hcontrol, ← hflags, ← flagsReservedClear_iff]
  simp only [fcwReservedClear, Bool.and_eq_true, Bool.not_eq_true']

/-! ### Loads of the FCW and of the flag byte -/

theorem State.loadFcw_of_reserved {s : State} {w : Word} (h : fcwReservedClear w = false) : s.loadFcw w = .error .reservedFcwBit :=
  if_neg (Bool.eq_false_iff.1 h)

theorem State.loadFlags_of_reserved {s : State} {b : Byte} (h : flagsReservedClear b = false) : s.loadFlags b = .error .reservedFcwBit :=
  if_neg (Bool.eq_false_iff.1 h)

/-- Each field is taken from its bit of the word. -/
theorem Fcw.ofWord_eq (f : Fcw) (v : Variant) (w : Word) : f.ofWord v w =
    { seg := if v = .amz8001 then w.getLsbD 15 else f.seg, sn := w.getLsbD 14, se := w.getLsbD 13, vie := w.getLsbD 12,
      nvie := w.getLsbD 11, c := w.getLsbD 7, z := w.getLsbD 6, s := w.getLsbD 5, pv := w.getLsbD 4, da := w.getLsbD 3, h := w.getLsbD 2 } := by
  simp [Fcw.ofWord, Fcw.withFlags, loByte]

/-- The flag byte of flags that were loaded from a byte with its reserved bits 0 is that byte. -/
theorem Fcw.flags_withFlags (f : Fcw) {b : Byte} (h : flagsReservedClear b = true) : (f.withFlags b).word.extractLsb' 0 8 = b := by
  simp only [flagsReservedClear, Bool.and_eq_true, Bool.not_eq_true'] at h
  obtain ⟨h1, h0⟩ := h
  apply BitVec.eq_of_getLsbD_eq
  intro i hi
  rw [BitVec.getLsbD_extractLsb', decide_eq_true hi, Bool.true_and, Nat.zero_add, Fcw.getLsbD_word]
  interval_cases i
  · exact h0.symm
  · exact h1.symm
  all_goals rfl

/-- The AMZ8001 holds the whole of an FCW word with its reserved bits 0. -/
theorem Fcw.word_ofWord_8001 (f : Fcw) {w : Word} (h : fcwReservedClear w = true) : (f.ofWord .amz8001 w).word = w := by
  have hstatus := ofWord_isStatus f .amz8001 w h
  apply BitVec.eq_of_getLsbD_eq
  intro i hi
  rcases Nat.lt_succ_iff_lt_or_eq.1 hi with hlow | rfl
  · exact hstatus.low i hlow
  · rw [Fcw.getLsbD_word]
    exact hstatus.seg

/-! ### O25 -/

/-- Settles O25: the layout is that of the model, and a load is refused exactly for a reserved bit. -/
theorem fcwWordRules : Obligations.FcwWordRules := by
  refine ⟨fun _ => rfl, fun _ => rfl, fun s w hreserved => ?refused, fun s w hcontrol hflags => ?loaded,
    fun s b hreserved => ?flagsRefused, fun s b hflags => ?flagsLoaded⟩
  case refused =>
    refine State.loadFcw_of_reserved (Bool.eq_false_iff.2 fun hclear => ?_)
    obtain ⟨hcontrol, hflags⟩ := (fcwReservedClear_iff w).1 hclear
    exact hreserved.elim (· hcontrol) (· hflags)
  case loaded => exact loadFcw_ok.2 ⟨(fcwReservedClear_iff w).2 ⟨hcontrol, hflags⟩, congrArg s.setFcw (s.fcw.ofWord_eq _ w)⟩
  case flagsRefused =>
    exact State.loadFlags_of_reserved (Bool.eq_false_iff.2 fun hclear => hreserved ((flagsReservedClear_iff b).1 hclear))
  case flagsLoaded => exact loadFlags_ok.2 ⟨(flagsReservedClear_iff b).2 hflags, rfl⟩

end Sys2Proof.Machine
end

section
/-! SUPPORT. The CPU control instructions (spec/49_cpu_control.md R442 to R455). -/

namespace Sys2Proof.Machine

/-- In system mode a system instruction is its own meaning (R505). -/
theorem finish_requireSystem {s : State} (hs : s.fcw.sn = true) (i : Instr) (body : State → Except Refusal State) :
    finish (requireSystem i s body) = finish (body s) :=
  congrArg finish (if_pos hs)

/-! ### Flags and enables -/

/-- The flags that COMFLG, RESFLG and SETFLG leave, when `op` says what g does to a flag by its selection bit. -/
theorem Fcw.selected_flags {op : Bool → Bool → Bool} {g : Bool → Bool} (hop : ∀ x sel, (if sel then g x else x) = op x sel) (f : BitVec 4)
    (w : Fcw) : (w.selected f g).c = op w.c (f.getLsbD 3) ∧ (w.selected f g).z = op w.z (f.getLsbD 2) ∧
      (w.selected f g).s = op w.s (f.getLsbD 1) ∧ (w.selected f g).pv = op w.pv (f.getLsbD 0) :=
  ⟨hop .., hop .., hop .., hop ..⟩

/-- The enables that DI and EI leave, when `op` says what the new value does to an enable that is named or not. -/
theorem Fcw.enables_flags {op : Bool → Bool → Bool} {b : Bool} (hop : ∀ x named, (if named then b else x) = op x named) (vi nvi : Bool)
    (w : Fcw) : (w.enables vi nvi b).vie = op w.vie vi ∧ (w.enables vi nvi b).nvie = op w.nvie nvi :=
  ⟨hop .., hop ..⟩

/-! ### Multi-micro requests -/

/-- MREQ draws Z, S, its register and the line, in this order (R455; log 37). -/
theorem execMreq_next {s : State} (hs : s.fcw.sn = true) (d : RegCode) : exec (.mreq d) s =
    .next (((s.drawn.drawn.drawn.drawn.setReg d s.drawn.drawn.free).setFcw
      { s.fcw with z := s.freeBit, s := s.drawn.freeBit }).setMultiMicro s.drawn.drawn.drawn.freeBit) :=
  finish_requireSystem hs _ _

/-! ### O58 -/

/-- Settles O58: each instruction is one update of the state, in system mode where it is a system instruction. -/
theorem flagEnableAndLineInstructions : Obligations.FlagEnableAndLineInstructions := by
  refine ⟨fun s f => ?comflg, fun s f => ?resflg, fun s f => ?setflg, fun s vi nvi hs => ?di, fun s vi nvi hs => ?ei, fun s hs => ?halt,
    fun s => rfl, fun s hs => ⟨?mset, ?mres, ?mbit, fun d => ?mreq⟩⟩
  case comflg => exact ⟨_, rfl, Fcw.selected_flags (op := fun x sel => x ^^ sel) (by decide) f s.fcw⟩
  case resflg => exact ⟨_, rfl, Fcw.selected_flags (op := fun x sel => x && !sel) (by decide) f s.fcw⟩
  case setflg => exact ⟨_, rfl, Fcw.selected_flags (op := fun x sel => x || sel) (by decide) f s.fcw⟩
  case di => exact ⟨_, finish_requireSystem hs _ _, Fcw.enables_flags (op := fun x named => x && !named) (by decide) vi nvi s.fcw⟩
  case ei => exact ⟨_, finish_requireSystem hs _ _, Fcw.enables_flags (op := fun x named => x || named) (by decide) vi nvi s.fcw⟩
  case halt => exact finish_requireSystem hs _ _
  case mset | mres => exact ⟨_, finish_requireSystem hs _ _, rfl, rfl⟩
  case mbit => exact ⟨_, finish_requireSystem hs _ _, rfl, rfl, rfl⟩
  case mreq => exact ⟨_, execMreq_next hs d, by simp, by simp⟩

/-! ### Control registers -/

section
variable {s : State} {c : Ctl}

/-- The control registers of both parts (R452). -/
theorem needCtl_of_common (c : Ctl) (v : Variant) (hc : ¬(c = .psapseg ∨ c = .nspseg) := by decide) : needCtl v c = .ok () :=
  if_neg fun h => hc h.2

/-- The AMZ8001 has every control register (R452). -/
theorem needCtl_8001 (c : Ctl) {v : Variant} (hv : v = .amz8001) : needCtl v c = .ok () := by
  subst hv
  exact if_neg fun h => nomatch h.1

/-- PSAPSEG and NSPSEG are refused on the AMZ8002 (R452). -/
theorem needCtl_of_missing {v : Variant} (hv : v = .amz8002) (hc : c = .psapseg ∨ c = .nspseg) : needCtl v c = .error .undefinedEncoding :=
  if_pos ⟨hv, hc⟩

/-- LDCTL leaves the word of the control register in its register. -/
theorem ldctlRead_next (hs : s.fcw.sn = true) (hc : needCtl s.cfg.variant c = .ok ()) (d : RegCode) :
    ∃ t, exec (.ldctlRead d c) s = .next t ∧ t.reg d = s.ctlWord c :=
  ⟨_, (finish_requireSystem hs _ _).trans (finish_next.2 (bind_ok.2 ⟨(), hc, rfl⟩)), State.reg_setReg_same _ _ _⟩

/-- LDCTL writes the control register with its register. -/
theorem ldctlWrite_eq (hs : s.fcw.sn = true) (hc : needCtl s.cfg.variant c = .ok ()) (r : RegCode) :
    exec (.ldctlWrite c r) s = finish (s.ctlWrite c (s.reg r)) :=
  (finish_requireSystem hs _ _).trans (by rw [hc]; rfl)

theorem ldctl_refused (hs : s.fcw.sn = true) {e : Refusal} (hc : needCtl s.cfg.variant c = .error e) (r : RegCode) :
    exec (.ldctlRead r c) s = .refused e ∧ exec (.ldctlWrite c r) s = .refused e :=
  ⟨(finish_requireSystem hs _ _).trans (by rw [hc]; rfl), (finish_requireSystem hs _ _).trans (by rw [hc]; rfl)⟩

end

/-- RE and the rate in the word that a read of REFRESH gives (R452, R65). -/
theorem refreshWord_fields (s : State) :
    (s.ctlWord .refresh).getLsbD 15 = s.refresh.re ∧ (s.ctlWord .refresh).extractLsb' 9 6 = s.refresh.rate := by
  obtain ⟨hre, hrate, -⟩ := fields_of_append_three (BitVec.ofBool s.refresh.re) s.refresh.rate (s.free.extractLsb' 0 9)
  refine ⟨?_, hrate⟩
  have hbit := congrArg (BitVec.getLsbD · 0) hre
  simp only [BitVec.getLsbD_extractLsb', BitVec.getLsbD_ofBool] at hbit
  exact hbit

/-! ### O59 -/

/-- Settles O59: each register by itself, on the parts that have it. -/
theorem controlRegistersReadAndWrite : Obligations.ControlRegistersReadAndWrite := by
  refine ⟨fun s d hs => ?read, fun s d => ⟨_, rfl, s.rb_setRb_same d _⟩, fun s r hs => ?write, fun s r => ?flagsWrite⟩
  case read =>
    have common (c : Ctl) (hc : ¬(c = .psapseg ∨ c = .nspseg) := by decide) := ldctlRead_next hs (needCtl_of_common c s.cfg.variant hc) d
    have only8001 (c : Ctl) (hv : s.cfg.variant = .amz8001) := ldctlRead_next hs (needCtl_8001 c hv) d
    have missing {c : Ctl} (hc : c = .psapseg ∨ c = .nspseg) (hv : s.cfg.variant = .amz8002) :=
      (ldctl_refused hs (needCtl_of_missing hv hc) d).1
    obtain ⟨hre, hrate⟩ := refreshWord_fields s
    obtain ⟨t, hnext, hreg⟩ := common .refresh
    exact ⟨common .fcw, ⟨t, hnext, by rw [hreg, hre], by rw [hreg, hrate]⟩, common .psapoff, common .nspoff,
      fun hv => ⟨only8001 .psapseg hv, only8001 .nspseg hv⟩, fun hv => ⟨missing (.inl rfl) hv, missing (.inr rfl) hv⟩⟩
  case write =>
    have common (c : Ctl) (hc : ¬(c = .psapseg ∨ c = .nspseg) := by decide) := ldctlWrite_eq hs (needCtl_of_common c s.cfg.variant hc) r
    have only8001 (c : Ctl) (hv : s.cfg.variant = .amz8001) := ldctlWrite_eq hs (needCtl_8001 c hv) r
    have missing {c : Ctl} (hc : c = .psapseg ∨ c = .nspseg) (hv : s.cfg.variant = .amz8002) :=
      (ldctl_refused hs (needCtl_of_missing hv hc) r).2
    refine ⟨fun hclear => ?fcw, fun hreserved => (common .fcw).trans (congrArg finish (State.loadFcw_of_reserved hreserved)),
      ⟨_, common .refresh, rfl, rfl, rfl⟩, ⟨_, common .psapoff, rfl⟩, ⟨_, common .nspoff, Vector.getElem_set_self ..⟩,
      fun hv => ⟨⟨_, only8001 .psapseg hv, rfl⟩, ⟨_, only8001 .nspseg hv, Vector.getElem_set_self ..⟩⟩,
      fun hv => ⟨missing (.inl rfl) hv, missing (.inr rfl) hv⟩⟩
    case fcw => exact ⟨_, (common .fcw).trans (finish_next.2 (loadFcw_ok.2 ⟨hclear, rfl⟩)), ofWord_isStatus _ _ _ hclear⟩
  case flagsWrite =>
    exact ⟨fun hclear => ⟨_, finish_next.2 (loadFlags_ok.2 ⟨hclear, rfl⟩), s.fcw.flags_withFlags hclear⟩,
      fun hreserved => congrArg finish (State.loadFlags_of_reserved hreserved)⟩

/-! ### The program status -/

section
variable {s : State} {a : Address}

/-- The FCW and the PC, one after the other, from words that hold a valid status (R440, R39). -/
theorem newStatus_of_valid (s : State) (g : SegNum) {w off : Word} (hf : fcwReservedClear w = true) (hpc : off.getLsbD 0 = false) :
    (s.loadFcw w >>= fun u => State.setPcOff { u with pcSeg := g } off) =
      .ok { s with fcw := s.fcw.ofWord s.cfg.variant w, pcSeg := g, pcOff := off } :=
  bind_ok.2 ⟨_, loadFcw_ok.2 ⟨hf, rfl⟩, setPcOff_ok.2 ⟨hpc, rfl⟩⟩

/-- An odd value for the PC is refused after the FCW is loaded (R39). -/
theorem newStatus_of_odd (s : State) (g : SegNum) {w off : Word} (hf : fcwReservedClear w = true) (hodd : off.getLsbD 0 = true) :
    (s.loadFcw w >>= fun u => State.setPcOff { u with pcSeg := g } off) = .error .oddPc := by
  rw [loadFcw_ok.2 ⟨hf, rfl⟩]
  exact if_pos hodd

/-- A reserved FCW bit is refused, whatever the PC (R58). -/
theorem newStatus_of_reserved (s : State) (g : SegNum) {w off : Word} (hf : fcwReservedClear w = false) :
    (s.loadFcw w >>= fun u => State.setPcOff { u with pcSeg := g } off) = .error .reservedFcwBit := by
  rw [State.loadFcw_of_reserved hf]
  rfl

/-- The status block of a segmented machine is read at offsets 2, 4 and 6 (R454). -/
theorem loadStatus_segmented (h : s.segmented = true) (heven : a.off.getLsbD 0 = false)
    (hf : fcwReservedClear (s.wordAt (a.plus 2)) = true) (hpc : (s.wordAt (a.plus 6)).getLsbD 0 = false) :
    s.loadStatus a = .ok { s with
      fcw := s.fcw.ofWord s.cfg.variant (s.wordAt (a.plus 2)), pcSeg := segOf (s.wordAt (a.plus 4)), pcOff := s.wordAt (a.plus 6) } := by
  have read (k : Word) (hk : k.getLsbD 0 = false) := s.readWord_of_even _ (a.plus_even k hk heven)
  rw [State.loadStatus, if_pos h]
  exact bind_ok.2 ⟨_, read 2 rfl, bind_ok.2 ⟨_, read 4 rfl, bind_ok.2 ⟨_, read 6 rfl, newStatus_of_valid s _ hf hpc⟩⟩⟩

/-- The status block of a non-segmented machine is read at offsets 0 and 2 (R454). -/
theorem loadStatus_nonsegmented (h : s.segmented = false) (heven : a.off.getLsbD 0 = false) (hf : fcwReservedClear (s.wordAt a) = true)
    (hpc : (s.wordAt (a.plus 2)).getLsbD 0 = false) :
    s.loadStatus a = .ok { s with fcw := s.fcw.ofWord s.cfg.variant (s.wordAt a), pcOff := s.wordAt (a.plus 2) } := by
  rw [State.loadStatus, if_neg (Bool.eq_false_iff.1 h)]
  exact bind_ok.2 ⟨_, s.readWord_of_even a heven, bind_ok.2 ⟨_, s.readWord_of_even _ (a.plus_even 2 rfl heven),
    bind_ok.2 ⟨_, loadFcw_ok.2 ⟨hf, rfl⟩, setPcOff_ok.2 ⟨hpc, rfl⟩⟩⟩⟩

theorem execLdps_next {src : MemOp} {t : State} (hs : s.fcw.sn = true) (hea : s.ea src = .ok a) (hload : s.loadStatus a = .ok t) :
    exec (.ldps src) s = .next t :=
  (finish_requireSystem hs _ _).trans (finish_next.2 (bind_ok.2 ⟨a, hea, hload⟩))

end

/-! ### O60 -/

/-- Settles O60: the block is read in the form of the mode, and its words are the new status. -/
theorem loadProgramStatus : Obligations.LoadProgramStatus := by
  refine ⟨fun s src a hs hseg hea heven hf hpc => ?nonsegmented, fun s src a hs hseg hea heven hf hpc => ?segmented⟩
  case nonsegmented =>
    exact ⟨_, execLdps_next hs hea (loadStatus_nonsegmented hseg (a.isEven_iff.1 heven) hf hpc), ofWord_isStatus _ _ _ hf, rfl, rfl⟩
  case segmented =>
    exact ⟨_, execLdps_next hs hea (loadStatus_segmented hseg (a.isEven_iff.1 heven) hf hpc), ofWord_isStatus _ _ _ hf, rfl, rfl⟩

end Sys2Proof.Machine
end

section
/-! SUPPORT. The boundary between instructions (spec/60_exceptions.md R509 to R522; spec/49_cpu_control.md R449; spec/20_memory.md R103):
which request is accepted, how it is entered, how a halted machine waits, and where a fetch stops or traps. -/

namespace Sys2Proof.Machine

/-! ### O6 -/

/-- A request that is not presented or not enabled counts as none (R510, R511). -/
theorem masked_eq_none {enabled : Bool} {request : Option Word} (h : request = none ∨ enabled = false) :
    (if enabled then request else none) = none := by
  rcases h with rfl | rfl
  · exact ite_self none
  · rfl

/-- Settles O6: each kind is looked at when those before it are absent or masked. -/
theorem interruptPriority : Obligations.InterruptPriority := by
  intro q f
  refine ⟨fun w hnmi => ?nmi, fun w hnmi hvi hvie => ?vi, fun w hnmi hvi hnvi hnvie => ?nvi, fun hnmi hvi hnvi => ?none⟩
  case nmi => simp only [acceptedRequest, hnmi]
  case vi => simp only [acceptedRequest, hnmi, hvi, hvie, if_true]
  case nvi => simp only [acceptedRequest, hnmi, masked_eq_none hvi, hnvi, hnvie, if_true]
  case none => simp only [acceptedRequest, hnmi, masked_eq_none hvi, masked_eq_none hnvi]

/-! ### The state that a trap or an interrupt enters from -/

section
variable {s t : State} {kind : TrapKind} {ident off : Word}

/-- What trap entry leaves depends on neither the coming requests, the PC's offset nor the note of stores before, and does not speak of
the note after. -/
theorem IsEntered.of_update {q : List Requests} {x : Word} {noted noted' : List Nat} {b b' : Bool}
    (h : IsEntered { s with requests := q, pcOff := x, stores := noted, repeating := b } kind ident off t) :
    IsEntered s kind ident off { t with stores := noted', repeating := b' } where
  status := h.status
  pcSeg := h.pcSeg
  pcOff := h.pcOff
  halted := h.halted
  identWord := h.identWord
  fcwWord := h.fcwWord
  savedPc := h.savedPc
  otherRegs := h.otherRegs
  otherBytes := h.otherBytes
  otherState := h.otherState

/-- An accepted request is entered with the PC of the next instruction saved (R512, R517). -/
theorem step_of_request (h : acceptedRequest s.presented s.fcw = some (kind, ident)) :
    step s = finish (State.takeInterrupt { s with requests := s.requests.tail } kind ident) := by
  unfold step
  rw [h]

end

/-! ### Entries of the new program status area (R520 to R522) -/

/-- The PC of a vectored interrupt is one of a table, by the low byte of the identifier. -/
theorem psaPc_vi (v : Variant) (ident : Word) : psaPc v .vi ident = psaFcw v .vi + 2 + 2 * (0#8 ++ ident.extractLsb' 0 8) := by
  rw [psaPc, if_pos rfl, BitVec.setWidth_eq_append (by decide : 8 ≤ 16)]
  rfl

/-! ### O7 -/

/-- Settles O7: the step is trap entry, which does not look at `halted`, and the note of stores is kept over it. -/
theorem interruptIsEntered : Obligations.InterruptIsEntered := by
  refine ⟨fun s kind w hrequest hready => ?entered, fun w kind fcw pc h => ?entries8001, fun w kind fcw pc h => ?entries8002⟩
  case entered =>
    obtain ⟨t, hentry, hentered, hrequests⟩ := trapEntry_entered (s := { s with requests := s.requests.tail }) s.pcOff hready
    refine ⟨{ t with stores := s.stores, repeating := false }, (step_of_request hrequest).trans (finish_next.2 ?_),
      hentered.of_update, hrequests, rfl, rfl⟩
    exact bind_ok.2 ⟨t, hentry, rfl⟩
  case entries8001 =>
    generalize hrow : (kind, fcw, pc) = row at h
    fin_cases h <;> cases hrow
    iterate 4 exact ⟨rfl, rfl⟩
    exact ⟨rfl, psaPc_vi .amz8001 w⟩
  case entries8002 =>
    generalize hrow : (kind, fcw, pc) = row at h
    fin_cases h <;> cases hrow
    iterate 4 exact ⟨rfl, rfl⟩
    exact ⟨rfl, psaPc_vi .amz8002 w⟩

/-! ### Fetches that do not give an instruction -/

section
variable {s : State}

/-- The PC must be even (R39). -/
theorem State.fetch_of_odd (h : s.pc.isEven = false) : s.fetch = .error .oddPc :=
  if_pos ((Bool.not_eq_false' _).mp h)

/-- The last instruction must not have stored into the one fetched (R103). -/
theorem State.fetch_of_modified {i : Instr} {rest : List Word} (heven : s.pc.isEven = true)
    (hdec : decode s.segmented s.fetchWords = .ok (i, rest)) (hmod : s.modified (lengthOf i) = true) :
    s.fetch = .error .modifiesNextInstruction := by
  simp only [State.fetch, s.isEven_pc_iff.1 heven, hdec, hmod, Bool.false_eq_true, if_false, if_true]

theorem State.fetch_of_undecodable {e : DecodeError} (heven : s.pc.isEven = true) (hdec : decode s.segmented s.fetchWords = .error e) :
    s.fetch = s.fetchFailed e := by
  simp only [State.fetch, s.isEven_pc_iff.1 heven, hdec, Bool.false_eq_true, if_false]

/-- Words that decode to nothing are refused by the reason's name, in system mode or when no system instruction begins with the first
(R135, R505). -/
theorem State.fetchFailed_refused (e : DecodeError) (h : s.fcw.sn = true ∨ privilegedFirstWord (s.wordAt s.pc) = false) :
    s.fetchFailed e = .error (refusalOf e) := by
  refine if_neg fun hboth => ?_
  obtain ⟨hsn, hfirst⟩ := (Bool.and_eq_true _ _).mp hboth
  rcases h with hsystem | huser
  · rw [hsystem] at hsn
    cases hsn
  · cases huser.symm.trans hfirst

/-- In normal mode the first word of a system instruction is looked at for stores (R505, R103). -/
theorem State.fetchFailed_modified (e : DecodeError) (hsn : s.fcw.sn = false) (hfirst : privilegedFirstWord (s.wordAt s.pc) = true)
    (hmod : s.modified s.privilegedWords = true) : s.fetchFailed e = .error .modifiesNextInstruction := by
  simp only [State.fetchFailed, hsn, hfirst, hmod, Bool.not_false, Bool.and_self, if_true]

/-- A running machine whose fetch is refused stops. -/
theorem stepInstr_of_refused {r : Refusal} (hrunning : s.halted = false) (hfetch : s.fetch = .error r) : stepInstr s = .refused r := by
  unfold stepInstr
  rw [hrunning, hfetch]
  rfl

/-- A running machine whose fetch traps enters the handler. -/
theorem stepInstr_of_trapped {t : State} (hrunning : s.halted = false) (hfetch : s.fetch = .ok (.trapped t)) : stepInstr s = .next t := by
  unfold stepInstr
  rw [hrunning, hfetch]
  rfl

theorem stepInstr_of_halted (h : s.halted = true) : stepInstr s = .next s :=
  if_pos h

end

/-! ### O8 -/

/-- Settles O8: waiting is a step, and each other clause is one outcome of the fetch, which does not look at the requests. -/
theorem waitingAndFetchStops : Obligations.WaitingAndFetchStops := by
  refine ⟨fun s hhalted hnone => (step_of_no_request hnone).trans (stepInstr_of_halted hhalted), fun s hrunning hnone => ?_⟩
  let u : State := { s with requests := s.requests.tail }
  have refused {r : Refusal} (hfetch : u.fetch = .error r) : step s = .refused r :=
    (step_of_no_request hnone).trans (stepInstr_of_refused hrunning hfetch)
  refine ⟨fun hodd => refused (u.fetch_of_odd hodd), fun e heven hdec hplain => ?undecodable, fun i rest k heven hdec hk hstored => ?modified,
    fun e heven hdec hsn hfirst => ⟨fun k hk hstored => ?privilegedModified, fun hstores hready => ?trapped⟩⟩
  case undecodable => exact refused ((u.fetch_of_undecodable heven hdec).trans (u.fetchFailed_refused e hplain))
  case modified => exact refused (u.fetch_of_modified heven hdec (modified_eq_true.2 ⟨k, hk, hstored⟩))
  case privilegedModified =>
    have hmod : u.modified u.privilegedWords = true := modified_eq_true.2 ⟨k, hk, hstored⟩
    exact refused ((u.fetch_of_undecodable heven hdec).trans (u.fetchFailed_modified e hsn hfirst hmod))
  case trapped =>
    obtain ⟨t, hentry, hentered, hrequests⟩ :=
      trapEntry_entered (s := u.advanced u.privilegedWords) (u.trapPc u.privilegedWords) hready
    have hfetch : u.fetch = .ok (.trapped t) :=
      (u.fetch_of_undecodable heven hdec).trans (fetchFailed_ok.2 ⟨hsn, hfirst, modified_eq_false.2 hstores, t, hentry, rfl⟩)
    exact ⟨t, (step_of_no_request hnone).trans (stepInstr_of_trapped hrunning hfetch), IsEntered.of_update (s := s) hentered, hrequests⟩

end Sys2Proof.Machine
end

section
/-! SUPPORT. Reset (spec/70_reset_and_hazards.md R560 to R564). -/

namespace Sys2Proof.Machine

section
variable {u : State}

/-- The machine in which Reset reads its locations: SEG is 0, refresh is enabled, and nothing waits or is noted (R563, R564). -/
def State.atReset (u : State) : State :=
  { u with
    halted := false, requests := [], stores := [], repeating := false
    refresh := { u.refresh with re := true }
    fcw := { u.fcw with seg := false } }

theorem atReset_readWord (u : State) {k : Word} (hk : k.getLsbD 0 = false) : u.atReset.readWord ⟨0, k⟩ = .ok (u.wordAt ⟨0, k⟩) :=
  u.atReset.readWord_of_even _ hk

/-- The reset locations of the AMZ8001: the FCW at 2, the PC's segment at 4 and its offset at 6 (R560, R561). -/
theorem applyReset_8001 (hcfg : u.cfg = Config.amz8001) : u.applyReset =
    (u.atReset.loadFcw (u.wordAt ⟨0, 2⟩) >>= fun t => State.setPcOff { t with pcSeg := segOf (u.wordAt ⟨0, 4⟩) } (u.wordAt ⟨0, 6⟩)) := by
  calc u.applyReset
    _ = (u.atReset.readWord ⟨0, 2⟩ >>= fun w => u.atReset.readWord ⟨0, 4⟩ >>= fun sg => u.atReset.readWord ⟨0, 6⟩ >>= fun off =>
          u.atReset.loadFcw w >>= fun t => State.setPcOff { t with pcSeg := segOf sg } off) := by
      obtain ⟨_, _, _, _, _, _, _, _, _, _, _, _, _, _, _, _, _⟩ := u
      cases hcfg
      rfl
    _ = _ := by simp only [atReset_readWord u (k := 2) rfl, atReset_readWord u (k := 4) rfl, atReset_readWord u (k := 6) rfl, bind_of_ok]

/-- The reset locations of the AMZ8002: the FCW at 0 and the PC at 2 (R560, R562). -/
theorem applyReset_8002 (hcfg : u.cfg = Config.amz8002) : u.applyReset =
    (u.atReset.loadFcw (u.wordAt ⟨0, 0⟩) >>= fun t => State.setPcOff { t with pcSeg := 0 } (u.wordAt ⟨0, 2⟩)) := by
  calc u.applyReset
    _ = (u.atReset.readWord ⟨0, 0⟩ >>= fun w => u.atReset.readWord ⟨0, 2⟩ >>= fun off =>
          u.atReset.loadFcw w >>= fun t => State.setPcOff { t with pcSeg := 0 } off) := by
      obtain ⟨_, _, _, _, _, _, _, _, _, _, _, _, _, _, _, _, _⟩ := u
      cases hcfg
      rfl
    _ = _ := by simp only [atReset_readWord u (k := 0) rfl, atReset_readWord u (k := 2) rfl, bind_of_ok]

end

/-! ### O11 -/

/-- Settles O11: Reset is the load of a new status from the reset locations of the part. -/
theorem resetLoadsStatus : Obligations.ResetLoadsStatus := by
  refine ⟨fun u hcfg hf => ⟨fun hpc => ?loaded8001, fun hodd => (applyReset_8001 hcfg).trans (newStatus_of_odd _ _ hf hodd)⟩,
    fun u hcfg hf => ⟨fun hpc => ?loaded8002, fun hodd => (applyReset_8002 hcfg).trans (newStatus_of_odd _ _ hf hodd)⟩, fun u h => ?reserved⟩
  case loaded8001 =>
    refine ⟨_, (applyReset_8001 hcfg).trans (newStatus_of_valid _ _ hf hpc), ?_, rfl, rfl, rfl, rfl, rfl, rfl, rfl, rfl⟩
    have hv : u.atReset.cfg.variant = .amz8001 := congrArg Config.variant hcfg
    rw [hv]
    exact Fcw.word_ofWord_8001 _ hf
  case loaded8002 =>
    have hv : u.atReset.cfg.variant = .amz8002 := congrArg Config.variant hcfg
    have hstatus := ofWord_isStatus u.atReset.fcw u.atReset.cfg.variant _ hf
    refine ⟨_, (applyReset_8002 hcfg).trans (newStatus_of_valid _ _ hf hpc), hstatus.low, hstatus.seg.trans ?_, rfl, rfl, rfl, rfl, rfl, rfl⟩
    rw [hv]
    rfl
  case reserved =>
    rcases h with ⟨hcfg, hf⟩ | ⟨hcfg, hf⟩
    · exact (applyReset_8001 hcfg).trans (newStatus_of_reserved _ _ hf)
    · exact (applyReset_8002 hcfg).trans (newStatus_of_reserved _ _ hf)

/-! ### O10 -/

/-- The empty memory reads 0 everywhere (log 2). -/
theorem State.reset_wordAt (a : Address) : State.reset.wordAt a = 0 := by
  change unlistedByte ++ unlistedByte = (0 : Word)
  rfl

/-- Settles O10: the reset locations of the empty memory hold 0, a valid status that leaves FCW and PC at 0. -/
theorem resetStateIsReset : Obligations.ResetStateIsReset := by
  refine ⟨rfl, rfl, rfl, (applyReset_8002 rfl).trans ?_⟩
  rw [State.reset_wordAt, State.reset_wordAt]
  exact newStatus_of_valid _ 0 rfl rfl

end Sys2Proof.Machine
end
